-- ==== Sys2Proof/Word.lean ====
section
/-! DEFINITION. The word types of the part and the indexed collections its records stand in.

Bytes are what passes at the panel port and on the block line; a word is a CRC-16 or a digest.
Counts, durations and numbers that the manual only compares and adds are natural numbers. -/

namespace Sys2Proof

/-- One character of the block line or one byte of the panel port. -/
abbrev Byte := BitVec 8

/-- A CRC-16, a section digest or a per-record digest (R173). -/
abbrev Word := BitVec 16

/-- The element of a fixed collection at an index that is within it. -/
def look {α : Type} {n : Nat} (v : Vector α n) (i : Fin n) : α := v[i.val]'i.isLt

/-- The collection with its element at `i` changed by `f`, every other element as it was. -/
def upd {α : Type} {n : Nat} (v : Vector α n) (i : Fin n) (f : α → α) : Vector α n :=
  v.set i.val (f (look v i)) i.isLt

/-- The collection made by giving each index its element. -/
def build {α : Type} (n : Nat) (f : Fin n → α) : Vector α n := Vector.ofFn f

/-- The byte of a number's value modulo 256. -/
def byte (n : Nat) : Byte := BitVec.ofNat 8 n

/-- A flag as a number, 0 or 1. -/
def bit (b : Bool) : Nat := if b then 1 else 0

end Sys2Proof
end

