-- ==== Sys2Proof/Syntax.lean ====
section
/-! DEFINITION. The commands and events of the part, one constructor of `Instr` for each row of
spec/opcode_table.json, with the named values and message layouts their operands use.

The block has no instruction encoding: the table gives no row any bits. A command is what reaches
the part at one of its four connections, or the passing of a moment that one of its records waits
for (00_scope.md, "The part in its railway"; 95_what_each_step_holds.md). -/

namespace Sys2Proof.Machine

/-- A local track circuit channel, 1 to 12, counted from 0 here. -/
abbrev ChanNo := Fin 12
/-- A lever, 1 to 64, counted from 0 here. -/
abbrev LeverNo := Fin 64
/-- An output: lock outputs 1 to 32 first, then control outputs n as 32 + n (section 2.2). -/
abbrev OutputNo := Fin 48
/-- A time-release timer, 1 to 8, counted from 0 here. -/
abbrev TimerNo := Fin 8
/-- A section end, E1 to E6, counted from 0 here. -/
abbrev EndNo := Fin 6
/-- An expression of the locking table, 1 to 80, counted from 0 here. -/
abbrev ExprNo := Fin 80
/-- A code table entry, 1 to 24, counted from 0 here. -/
abbrev CodeNo := Fin 24
/-- A subscription entry, 1 to 16 (remote track 13 to 28), counted from 0 here. -/
abbrev SubNo := Fin 16
/-- A station address, 1 to 15, as itself; 0 is no station's address. -/
abbrev Addr := Fin 16
/-- A through pair, 1 or 2, counted from 0 here. -/
abbrev PairNo := Fin 2

/-- A track number as conditions and section ends name it: 1 to 12 local, 13 to 28 remote. -/
inductive Track where
  | here (c : ChanNo)
  | far (i : SubNo)
  deriving DecidableEq, Repr

/-- The reported state of a track (section 1.4). -/
inductive TrackState where
  | clear | shunted | occupied | failed
  deriving DecidableEq, Repr

/-- The seven service states (R143). -/
inductive Service where
  | unloaded | loading | loaded | proving | inService | restrictive | lockdown
  deriving DecidableEq, Repr

/-- The switch states (section 7.2). -/
inductive SwitchState where
  | inn | out | inPending
  deriving DecidableEq, Repr

/-- The states of a section (section 6.2). -/
inductive SecState where
  | closed | blocked | clear | occupied
  deriving DecidableEq, Repr

/-- The direction of a section, as seen at its owner (00_scope.md). -/
inductive Direction where
  | none | inward | outward
  deriving DecidableEq, Repr

/-- The positions of a commutator (R99). -/
inductive CommPos where
  | blocked | clear | occupied
  deriving DecidableEq, Repr

/-- The states of a release record (section 6.4). -/
inductive RelState where
  | none | available | consumed
  deriving DecidableEq, Repr

/-- The kinds of a REQUEST (section 11.1). -/
inductive ReqKind where
  | accept | occupy | arrived | cancel
  deriving DecidableEq, Repr

/-- The refusal reasons of R105, in the order of its table, and the two that R126 adds. -/
inductive Reason where
  | notInService | notBlocked | obstruction | noOffer | clearance | homeLever | farSilent
  | releaseHeld | requestPending | fault | lineBusy | lapsed | releaseUsed | notProven | switched
  | offerOutstanding | throughLever
  deriving DecidableEq, Repr

/-- The outcome an ANSWER or an answer echo carries. -/
inductive Outcome where
  | taken
  | refused (r : Reason)
  deriving DecidableEq, Repr

/-- The meanings of the code table (R62), with UNRECOGNISED (R63). -/
inductive Meaning where
  | attention | offer (cls : Nat) | entering | outOfSection | cancel | testing | other | obstruction
  | unrecognised
  deriving DecidableEq, Repr

/-- One section end as an OPEN lists it (section 5.5). -/
structure OpenEntry where
  section_ : Nat
  owner    : Bool
  digest   : Word
  deriving DecidableEq, Repr

/-- One section end as an END REPORT carries it; the commutator is absent where none is fitted. -/
structure EndLine where
  section_      : Nat
  commutator    : Option CommPos
  release       : RelState
  releaseNo     : Nat
  proofComplete : Bool
  deriving DecidableEq, Repr

/-- The answer echo of a SECTION STATE (R85). -/
structure EchoMsg where
  number  : Nat
  outcome : Outcome
  deriving DecidableEq, Repr

/-- The contents of a SECTION STATE (section 5.5). -/
structure StateMsg where
  section_    : Nat
  state       : SecState
  dir         : Direction
  acc         : Nat
  cls         : Option Nat
  obstruction : Bool
  ownerFault  : Bool
  echo        : Option EchoMsg
  deriving DecidableEq, Repr

/-- The contents of an END REPORT (section 5.5). -/
structure ReportMsg where
  service : Service
  switch  : SwitchState
  ends    : List EndLine
  tracks  : List (ChanNo × TrackState)
  deriving DecidableEq, Repr

/-- The contents of a BELL (section 5.5). -/
structure BellMsg where
  section_ : Nat
  overlong : Bool
  relayed  : Bool
  groups   : List Nat
  deriving DecidableEq, Repr

/-- The contents of a REQUEST; the class is 0 unless the kind is ACCEPT. -/
structure RequestMsg where
  section_ : Nat
  number   : Nat
  kind     : ReqKind
  cls      : Nat
  deriving DecidableEq, Repr

/-- The contents of an ANSWER. -/
structure AnswerMsg where
  section_ : Nat
  number   : Nat
  outcome  : Outcome
  deriving DecidableEq, Repr

/-- The contents of an OPEN ACK. -/
structure AckMsg where
  section_ : Nat
  digestsMatch : Bool
  state    : SecState
  dir      : Direction
  deriving DecidableEq, Repr

/-- The eight kinds of telegram (section 5.5), each with its contents. -/
inductive Telegram where
  | opening (entries : List OpenEntry)
  | openAck (m : AckMsg)
  | sectionState (m : StateMsg)
  | endReport (m : ReportMsg)
  | request (m : RequestMsg)
  | answer (m : AnswerMsg)
  | bell (m : BellMsg)
  | failed (sections : List Nat)
  deriving DecidableEq, Repr

/-- The addresses of a received telegram; 0 as destination is every station. -/
structure Header where
  dst : Nat
  src : Nat
  deriving DecidableEq, Repr

/-- The static record kinds (section 8.1), each with its index, save the DIGEST ENTRY. -/
inductive StaticId where
  | station
  | channel (c : ChanNo)
  | lever (l : LeverNo)
  | timer (t : TimerNo)
  | expr (x : ExprNo)
  | code (k : CodeNo)
  | sub (i : SubNo)
  | sectionEnd (e : EndNo)
  | pair (p : PairNo)
  deriving DecidableEq, Repr

/-- A record that carries a check word (the table of section 8.1). -/
inductive RecordId where
  | fixed (r : StaticId)
  | digest (r : StaticId)
  | channel (c : ChanNo)
  | lever (l : LeverNo)
  | collars
  | timer (t : TimerNo)
  | key (e : EndNo)
  | offer (e : EndNo)
  | outstanding (e : EndNo)
  | replay
  | queue
  | stationRec (a : Addr)
  | freshness (e : EndNo)
  | sub (i : SubNo)
  | sectionRec (e : EndNo)
  | mirror (e : EndNo)
  | release (e : EndNo)
  | demand (e : EndNo)
  | switch
  deriving DecidableEq, Repr

/-- A debounced input of the scan chain (R19): closed contacts read as `true`. -/
inductive InputId where
  | leverN (l : LeverNo)
  | leverR (l : LeverNo)
  | commutator (e : EndNo) (p : CommPos)
  | bellKey (e : EndNo)
  | switchKey
  deriving DecidableEq, Repr

/-- What one conversion of a track sense input delivers (section 1.2): a sample of 0 to 1023
counts, or a converter fault. -/
inductive Sample where
  | valid (counts : Fin 1024)
  | fault
  deriving DecidableEq, Repr

/-- What one scan reads from the input latches (section 2.1), one bit for each contact or monitor,
and the expressions that each lane of the evaluator answers wrongly at this scan (R52, R53: the
malfunction of a lane is a physical event, given here as the scan finds it). -/
structure ScanInputs where
  leverN      : BitVec 64
  leverR      : BitVec 64
  monitors    : BitVec 48
  commBlocked : BitVec 6
  commClear   : BitVec 6
  commOccupied : BitVec 6
  keys        : BitVec 6
  switchKey   : Bool
  laneErrA    : BitVec 80
  laneErrB    : BitVec 80
  deriving DecidableEq, Repr

/-- An OPEN or OPEN ACK that may be owed (R86). -/
inductive OwedItem where
  | opening
  | ack (e : EndNo)
  deriving DecidableEq, Repr

end Sys2Proof.Machine

namespace Sys2Proof

open Machine

/-- The commands and events of the part: one constructor for each row of the table. -/
inductive Instr where
  | powerOnReset
  | resetPinAssert
  | memoryTestEnd (passed : Bool)
  | trackSample (c : ChanNo) (x : Sample)
  | referenceUpdate (c : ChanNo) (counts : Fin 1024)
  | dropConfirmed (c : ChanNo) (counts : Fin 1024)
  | pickupConfirmed (c : ChanNo) (counts : Fin 1024)
  | highValueFailure (c : ChanNo) (counts : Fin 1024)
  | converterFailure (c : ChanNo)
  | channelSettled (c : ChanNo) (x : Sample)
  | frameScan (inp : ScanInputs)
  | takenChange (i : InputId)
  | timerExpiry (t : TimerNo)
  | outputReadback (n : OutputNo)
  | lockNotEnergized (n : OutputNo)
  | selfCheck (x : ExprNo)
  | codeEnd (e : EndNo)
  | stuckKey (e : EndNo)
  | holdOffEnd (e : EndNo)
  | offerOutstandingExpiry (e : EndNo)
  | offerRecordExpiry (e : EndNo)
  | bellStrokeStart
  | bellStrokeEnd
  | transmitStart
  | collision
  | transmitSuccess
  | openReceived (h : Header) (entries : List OpenEntry)
  | openAckReceived (h : Header) (m : AckMsg)
  | sectionStateReceived (h : Header) (m : StateMsg)
  | endReportReceived (h : Header) (m : ReportMsg)
  | requestReceived (h : Header) (m : RequestMsg)
  | answerReceived (h : Header) (m : AnswerMsg)
  | bellReceived (h : Header) (m : BellMsg)
  | failedReceived (h : Header) (sections : List Nat)
  | sectionStateRefresh (e : EndNo)
  | endReportRefresh
  | answerEchoExpiry (e : EndNo)
  | owedReoffer (w : OwedItem)
  | endReportStale (a : Addr)
  | sectionStateStale (e : EndNo)
  | requestLapse (e : EndNo)
  | arrivalReleaseWaitEnd (e : EndNo)
  | autoCancelRetry (e : EndNo)
  | demandRetry (e : EndNo)
  | autoArrivalRetry (e : EndNo)
  | scrubVisit (upset : List RecordId)
  | resumePassVisit (upset : List RecordId)
  | timeTick
  | transactionAbort (clocked : List Byte)
  | badCommandFrame (frame : List Byte)
  | loadBegin
  | loadRecord (kind index : Nat) (content : List Byte)
  | loadEnd (digest : Word)
  | loadEndChecksComplete
  | enterService
  | restart
  | setTime (tenths : Nat)
  | setCollars (mask value : BitVec 64)
  | restoreChannel (n : Nat)
  | arrivalRelease (n : Nat)
  | clearSwitchCause
  | repairRecord (kind index : Nat) (content : List Byte)
  | resume
  | readStation
  | readSection (n : Nat)
  | readTrack (n : Nat)
  | readFrame
  | readFault
  | noticeRead
  | registerRead
  | receivedTelegramDiscarded (chars : List Byte) (spoiled : Bool)
  deriving DecidableEq, Repr

end Sys2Proof
end

