-- ==== Sys2Proof/Decode.lean ====
section
/-! DEFINITION. The words of the table: no row of spec/opcode_table.json gives any bits, so no word
spells a command. The panel commands' frames are read in Machine/Operands.lean and the block line's
telegrams in Machine/Formats.lean. -/

namespace Sys2Proof

/-- The command that a word of a number of bits spells by the table: none, as no row has bits. -/
def decodeTableWord (_nbits _w : Nat) : Option Instr := none

end Sys2Proof
end

