-- ==== Sys2Proof/Config.lean ====
section
/-! DEFINITION. The fixed values of 00_scope.md ("Quantities and time") and the unit in which the
model counts the part's own time.

One unit is 1/48000 s, so that a millisecond is 48 units and a bit time of the block line, 1/9600 s,
is 5 units: every duration the manual states is a whole number of them (DESIGN CHOICE, log entry 2).
Two values are free, `collisionBit` and `strayFields`: the spec gives the part every other. -/

namespace Sys2Proof.Config

/-- A number of milliseconds, in units of own time. -/
def ms (n : Nat) : Nat := 48 * n
/-- A number of tenths of a second, in units of own time. -/
def tenths (n : Nat) : Nat := 4800 * n
/-- A number of seconds, in units of own time. -/
def secs (n : Nat) : Nat := 48000 * n
/-- A number of bit times of the block line (R74), in units of own time. -/
def bits (n : Nat) : Nat := 5 * n

/-- Track sample period of each channel. -/
def samplePeriod : Nat := ms 10
/-- Frame and instrument scan period. -/
def scanPeriod : Nat := ms 5
/-- Agreeing scans that take a change (R19). -/
def agreeingScans : Nat := 3
/-- Consecutive samples of one reference interval (R6). -/
def referenceInterval : Nat := 100
/-- The highest value of F and of a threshold, in sixteenths of a count. -/
def fullScale : Nat := 16368
/-- Refresh period of SECTION STATE and END REPORT, and of an owed or retried item. -/
def refreshPeriod : Nat := secs 2
/-- Stale time (R87). -/
def staleTime : Nat := secs 6
/-- Request timeout (R100), and the life of an answer echo (R85). -/
def requestTimeout : Nat := secs 4
/-- Offer validity (R65, R67). -/
def offerValidity : Nat := secs 120
/-- Cancellation time lock (R112). -/
def cancelLock : Nat := secs 60
/-- Arrival release wait (R109). -/
def releaseWait : Nat := secs 60
/-- Output readback tolerance, and the lanes' (R53). -/
def readbackTolerance : Nat := ms 20
/-- Consecutive disagreeing scans that outlast the tolerance (R35). -/
def readbackScans : Nat := 6
/-- Minimum bell beat (R57). -/
def minBeat : Nat := ms 30
/-- Closure that is a stuck key (R60). -/
def stuckClosure : Nat := ms 2000
/-- Time a key in HOLD OFF must stay open (R60). -/
def holdOffOpen : Nat := ms 1000
/-- Length of one bell stroke (R70). -/
def bellStroke : Nat := ms 60
/-- Beat pitch of the replay (R70). -/
def beatPitch : Nat := ms 250
/-- Group pitch of the replay (R70). -/
def groupPitch : Nat := ms 900
/-- The block line's idle gap (R74). -/
def idleGap : Nat := bits 20
/-- The bit at which a transmission begun at a moment of own time collides, before it is brought to a bit
of the telegram that is sent as 1. A FREE VALUE: the table gives COLLISION no operand, and R77 reckons the
idle gap from that bit (log entry 42). -/
opaque collisionBit : Nat → Nat
/-- What a static record's fields are once REPAIR RECORD has written a content into it that spells no record of
its kind, as the content of a record of that kind. A FREE VALUE: the digest comparison is the only judgement of
a content (R174), and no rule says how one that section 11.4 does not lay out is used (log entry 20). -/
opaque strayFields : StaticId → List Byte → List Byte
/-- Bit times of one character (section 5.1). -/
def charBits : Nat := 10
/-- Period of the time of day's advance (R159). -/
def timeTick : Nat := tenths 1
/-- Tenths of a second in a day (R159). -/
def dayTenths : Nat := 864000

/-- Gsep where the station record does not set it, in ms. -/
def defaultGsep : Nat := 450
/-- Gend where the station record does not set it, in ms. -/
def defaultGend : Nat := 1500
/-- Slow flash period and duty where not set. -/
def defaultSlow : Nat × Nat := (1000, 50)
/-- Fast flash period and duty where not set. -/
def defaultFast : Nat × Nat := (400, 50)

/-- Places of the transmit queue (R80). -/
def queuePlaces : Nat := 16
/-- Single telegrams the queue may hold (R80). -/
def singlePlaces : Nat := 9
/-- Attempts after which a telegram is discarded (R78). -/
def maxAttempts : Nat := 8
/-- Codes the replay queue may hold (R69). -/
def replayPlaces : Nat := 8
/-- Entries of the train register (R153). -/
def registerPlaces : Nat := 256
/-- Count at which REGISTER HALF is raised (R155). -/
def registerHalf : Nat := 128
/-- Notices the queue may hold (R157). -/
def noticePlaces : Nat := 32
/-- A contained tally's highest value (R142). -/
def tallyMax : Nat := 255
/-- Start byte of a telegram (section 11.2). -/
def startByte : Byte := 0xC3

end Sys2Proof.Config
end

