-- ==== Sys2Proof/Machine/State.lean ====
section
/-! DEFINITION. The state of the part: every record that a block owns (00_scope.md, "Blocks and how
they work together"), as plain data, with the queue of waiting commands and the part's own time. -/

namespace Sys2Proof.Machine

open Sys2Proof

/-! ## Reasons a step can stop -/

/-- The reasons for which the part would stop. The spec gives every command and event of the table
an effect or an answer in every state, so no meaning raises a fault: the type has one reason, raised
by no definition of the model (safe). -/
inductive Fault where
  /-- Raised by nothing: no rule of the spec stops the part. Safe. -/
  | neverRaised
  deriving DecidableEq, Repr

/-- The reasons for which a command has no meaning. -/
inductive Refusal where
  /-- Raised by `exec` alone, for a row whose meaning is not written yet; no row is one. Safe. -/
  | notModelled (mnemonic : String)
  deriving DecidableEq, Repr

/-! ## The configuration: static records (section 11.4) -/

/-- Static part of a channel record (section 1.1). -/
structure ChannelCfg where
  k : Nat
  kd : Nat
  kp : Nat
  kh : Nat
  nd : Nat
  np : Nat
  rmin : Nat
  rmax : Nat
  rnom : Nat
  published : Bool
  deriving DecidableEq, Repr

/-- Static part of a lever record (section 2.2). -/
structure LeverCfg where
  lock : Option (Fin 32)
  control : Option (Fin 16)
  releaseOf : Option EndNo
  throughOf : Option PairNo
  deriving DecidableEq, Repr

/-- Static record of a configured timer (section 2.7); the duration is in seconds. -/
structure TimerCfg where
  trigger : LeverNo
  approach : Track
  duration : Nat
  deriving DecidableEq, Repr

/-- Kinds of expression (R40). -/
inductive ExprKind where
  | reverse | normal | control
  deriving DecidableEq, Repr

/-- A locking condition (section 3.2). -/
inductive Cond where
  | leverNormal (l : LeverNo)
  | leverReverse (l : LeverNo)
  | trackClear (t : Track)
  | trackOccupied (t : Track)
  | sectionBlocked (e : EndNo)
  | sectionOccupied (e : EndNo)
  | releaseAvailable (e : EndNo)
  | releaseConsumed (e : EndNo)
  | timerIdle (t : TimerNo)
  | switchedIn
  | switchedOut
  deriving DecidableEq, Repr

/-- An expression of the locking table: an OR of terms, each an AND of conditions (R40). -/
structure Expr where
  lever : LeverNo
  kind  : ExprKind
  terms : List (List Cond)
  deriving DecidableEq, Repr

/-- A used code table entry (R62): a group value is absent where the pattern has ANY. -/
structure CodeCfg where
  pattern : List (Option Nat)
  meaning : Meaning
  deriving DecidableEq, Repr

/-- Static part of a used subscription entry (R89). -/
structure SubCfg where
  publisher : Addr
  channel   : ChanNo
  deriving DecidableEq, Repr

/-- Kinds of section, as seen from this end (00_scope.md). -/
inductive SecKind where
  | inwardOneWay | outwardOneWay | twoWay
  deriving DecidableEq, Repr

/-- Static record of a section end (section 6.1). -/
structure EndCfg where
  section_   : Nat
  neighbour  : Addr
  kind       : SecKind
  owner      : Bool
  commutator : Bool
  homeLever  : Option LeverNo
  clearance  : List Track
  proving    : List Track
  releaseLever : Option LeverNo
  entryTrack : Option ChanNo
  farEntry   : Option SubNo
  deriving DecidableEq, Repr

/-- Static record of a through pair (section 7.1). -/
structure PairCfg where
  endA : EndNo
  endB : EndNo
  levers : List LeverNo
  deriving DecidableEq, Repr

/-- The configuration: the STATION CONFIGURATION (flash and gap fields as loaded, 0 where not set)
and every other static record. -/
structure Configuration where
  address : Addr
  slowPeriod : Nat
  slowDuty : Nat
  fastPeriod : Nat
  fastDuty : Nat
  gsep : Nat
  gend : Nat
  channels : Vector ChannelCfg 12
  levers : Vector LeverCfg 64
  timers : Vector (Option TimerCfg) 8
  exprs : List Expr
  codes : Vector (Option CodeCfg) 24
  subs : Vector (Option SubCfg) 16
  ends : Vector (Option EndCfg) 6
  pairs : Vector (Option PairCfg) 2
  deriving DecidableEq, Repr

/-! ## Track sensing unit -/

/-- Decision states of a channel (section 1.4). -/
inductive Decision where
  | clear | dropping | occupied | picking | failed
  deriving DecidableEq, Repr

/-- Why a channel entered FAILED. -/
inductive FailCause where
  | highValue | converter
  deriving DecidableEq, Repr

/-- The clamp mark of a channel (R7). -/
inductive Clamp where
  | none | low | high
  deriving DecidableEq, Repr

/-- Dynamic part of a channel record (section 1.1). -/
structure Channel where
  f : Nat
  r : Nat
  decision : Decision
  drop : Nat
  pick : Nat
  high : Nat
  faultRun : Nat
  interval : Nat
  settle : Nat
  cause : Option FailCause
  clamp : Clamp
  bob : Bool
  lowFeed : Bool
  highFeed : Bool
  deriving DecidableEq, Repr

/-! ## Frame unit -/

/-- A debounced input (R19): its taken value, closed or open, and its agreement run. -/
structure Input where
  closed : Bool
  run : Nat
  deriving DecidableEq, Repr

/-- Positions of a lever (R21). -/
inductive LeverPos where
  | normal | reverse | mid | unknown
  deriving DecidableEq, Repr

/-- The end positions a stroke can leave. -/
inductive LeverEnd where
  | normal | reverse
  deriving DecidableEq, Repr

/-- A stroke in progress (section 2.3). -/
structure Stroke where
  left : LeverEnd
  hold : Bool
  deriving DecidableEq, Repr

/-- Dynamic part of a lever record (section 2.2); `contactsRead` is clear from initialisation to the
first scan after it (R22). -/
structure Lever where
  nContact : Input
  rContact : Input
  contactsRead : Bool
  position : LeverPos
  contactFault : Bool
  stroke : Option Stroke
  latch : Bool
  deriving DecidableEq, Repr

/-- One lever's part of the collar set (section 2.5). -/
structure Collar where
  effective : Bool
  staged : Option Bool
  deriving DecidableEq, Repr

/-- One lock or control output with its monitor (section 2.8); `sense` is the monitor reading of the
disagreement run in progress. -/
structure Output where
  command : Bool
  drive : Bool
  monitor : Bool
  sense : Bool
  run : Nat
  failedMark : Bool
  notEnergized : Bool
  deriving DecidableEq, Repr

/-! ## Locking evaluator -/

/-- What the evaluator keeps for one expression (R52, R53). -/
structure Lanes where
  laneA : Bool
  laneB : Bool
  since : Option Nat
  laneFailed : Bool
  deriving DecidableEq, Repr

/-! ## Bell unit -/

/-- Phase of a key record with the fields present in it (R56). -/
inductive KeyPhase where
  | idle
  | pressed (at_ : Nat)
  | gap
  | holdOff (openSince : Option Nat)
  | ignored
  deriving DecidableEq, Repr

/-- A code in assembly (R56). -/
structure Assembly where
  groups : List Nat
  overlong : Bool
  lastRelease : Nat
  deriving DecidableEq, Repr

/-- An offer record or an offer outstanding: the class and when it was set (R65, R67). -/
structure Offer where
  cls : Nat
  setAt : Nat
  deriving DecidableEq, Repr

/-- The bell unit's records of one section end, with its bell key input. -/
structure BellEnd where
  keyIn : Input
  phase : KeyPhase
  code : Option Assembly
  offer : Option Offer
  outstanding : Option Offer
  lost : Bool
  deriving DecidableEq, Repr

/-- A code of the replay queue (R69). -/
structure Queued where
  endNo : EndNo
  groups : List Nat
  deriving DecidableEq, Repr

/-- The replay queue and its ringing (R69, R70): the strokes of the head code already started, when
the next stroke is due, when the stroke in progress ends, and when the pause after the last code is
over. -/
structure Replay where
  codes : List Queued
  started : Nat
  nextDue : Nat
  ringingUntil : Option Nat
  pauseUntil : Nat
  deriving DecidableEq, Repr

/-! ## Line unit -/

/-- A telegram of the transmit queue: its destination, its contents, and the section end it concerns
where it concerns one (R78). -/
structure TxEntry where
  dst : Nat
  body : Telegram
  endNo : Option EndNo
  deriving DecidableEq, Repr

/-- A transmission in progress: the telegram as it is being sent, when it began, and whether the
head's content was replaced meanwhile (R81). -/
structure Sending where
  entry : TxEntry
  began : Nat
  replaced : Bool
  deriving DecidableEq, Repr

/-- An owed telegram (R86); `due` is absent while the offered telegram stands in the queue, and
`digestsMatch` is what an OPEN ACK says of the digests (R116; true for an OPEN). -/
structure Owed where
  due : Option Nat
  digestsMatch : Bool
  deriving DecidableEq, Repr

/-- A station record (R87): the time of the last END REPORT, its freshness, the lockdown mark, and
the service state the last END REPORT gave (R102 reads it). -/
structure StationRec where
  reportAt : Option Nat
  fresh : Bool
  lockdown : Bool
  service : Option Service
  deriving DecidableEq, Repr

/-- Dynamic part of a subscription entry (R89). -/
structure SubEntry where
  state : TrackState
  writtenAt : Option Nat
  deriving DecidableEq, Repr

/-- An answer echo with the time of its answer (R85). -/
structure Echo where
  msg : EchoMsg
  answeredAt : Nat
  deriving DecidableEq, Repr

/-- What the line unit keeps for one section end: the SECTION STATE freshness (far end), the last
offer and the answer echo (owner), and the owed OPEN ACK. -/
structure LineEnd where
  stateAt : Option Nat
  fresh : Bool
  offeredAt : Nat
  echo : Option Echo
  owedAck : Option Owed
  deriving DecidableEq, Repr

/-- A transmission that stopped at a collision (R77): when it began, and its bits as read back, the last
one the 0 of the collision. A telegram that goes on undisturbed began then and has those bits. -/
structure CutOff where
  began : Nat
  bits : List Bool
  deriving DecidableEq, Repr

/-- The line unit's own records; `cut` is the transmission that collided last, absent once the line has
been heard or taken again. -/
structure LineUnit where
  queue : List TxEntry
  attempt : Nat
  sending : Option Sending
  idleAt : Nat
  cut : Option CutOff
  owedOpen : Option Owed
  reportAt : Nat
  stations : Vector StationRec 16
  subs : Vector SubEntry 16
  ends : Vector LineEnd 6
  deriving DecidableEq, Repr

/-! ## Section unit -/

/-- Who asked for a pending request: the commutator, a through demand at the named through rear end
(R129), an automatic arrival, with whether a refusal has been registered for its proof already (R132), or
the auto-cancel mark (R113). -/
inductive Origin where
  | commutator
  | demand (rear : EndNo)
  | autoArrival (refusedSeen : Bool)
  | autoCancel
  deriving DecidableEq, Repr

/-- A pending request (R100). -/
structure Request where
  kind : ReqKind
  number : Nat
  deadline : Nat
  origin : Origin
  deriving DecidableEq, Repr

/-- The far status of a section record (section 6.2). -/
structure FarStatus where
  commutator : Option CommPos
  release : RelState
  releaseNo : Nat
  proofComplete : Bool
  deriving DecidableEq, Repr

/-- An arrival proof (R108, R109), with an automatic arrival made or waiting for it (R132). -/
structure Proof where
  p : Nat
  complete : Bool
  waitUntil : Option Nat
  auto : Bool
  refusedSeen : Bool
  waiting : Bool
  retryAt : Option Nat
  deriving DecidableEq, Repr

/-- Digest match of a section record (section 6.2). -/
inductive DigestMatch where
  | unknown | yes | no
  deriving DecidableEq, Repr

/-- Local obstruction flag of a mirror (section 6.3). -/
inductive LocalObs where
  | clear | set | setSeen
  deriving DecidableEq, Repr

/-- Which refused move set the refused mark; it says when the mark is cleared (R105). -/
inductive RefusedMark where
  | awayMove | blockedMove
  deriving DecidableEq, Repr

/-- The view of a section end: the section record at an owner (section 6.2), the mirror at a far end
(section 6.3). Fields of the one that the other lacks stay at their new-record values. The refused
mark is held by its cause: `refused` for a move (R105), `cancelRefused` for a CANCEL under the
auto-cancel mark that is not made again (R113); `cancelDue` says that a CANCEL under the mark is left to the
settlement of another pending request. -/
structure View where
  state : SecState
  dir : Direction
  acc : Nat
  cls : Option Nat
  obstruction : Bool
  ownerFault : Bool
  localObs : LocalObs
  farStatus : Option FarStatus
  digest : DigestMatch
  gesture : Bool
  pending : Option Request
  nextReq : Nat
  proof : Option Proof
  refused : Option RefusedMark
  autoCancel : Bool
  cancelRefused : Bool
  cancelDue : Bool
  cancelRetry : Option Nat
  deriving DecidableEq, Repr

/-- A release record (section 6.4). -/
structure Release where
  state : RelState
  acc : Nat
  normalAt : Option Nat
  deriving DecidableEq, Repr

/-- States of a through demand (R128). -/
inductive DemandState where
  | waiting | accepted | passing
  deriving DecidableEq, Repr

/-- A through demand (R128). -/
structure Demand where
  relNo : Nat
  state : DemandState
  partnerNo : Nat
  lastRefusal : Option Reason
  retryAt : Option Nat
  deriving DecidableEq, Repr

/-- A commutator (R99): its three contacts, its position and its contact fault. -/
structure Commutator where
  blockedIn : Input
  clearIn : Input
  occupiedIn : Input
  pos : CommPos
  fault : Bool
  deriving DecidableEq, Repr

/-- The section unit's records of one section end. -/
structure EndDyn where
  view : View
  release : Release
  demand : Option Demand
  comm : Commutator
  deriving DecidableEq, Repr

/-- Switch causes (section 7.2). -/
inductive SwitchCause where
  | key | fault | sectionClosed | service
  deriving DecidableEq, Repr

/-- The switch record (section 7.2); the key position is the key input's taken value. -/
structure SwitchRec where
  state : SwitchState
  cause : Option SwitchCause
  keyIn : Input
  mark : Bool
  refusal : Option Reason
  deriving DecidableEq, Repr

/-! ## Integrity unit -/

/-- The three kinds of urgent fault (R142). -/
inductive UrgentKind where
  | checkWord | selfCheck | outputReadback
  deriving DecidableEq, Repr

/-- What an urgent fault concerns (R145). -/
inductive FaultItem where
  | record (r : RecordId)
  | memory
  | output (n : OutputNo)
  deriving DecidableEq, Repr

/-- The operations that meet a damaged record (R140). -/
inductive Operation where
  | scrub | lockEvaluation | sectionUpdate | trackUpdate | telegramBuild | panelRead
  deriving DecidableEq, Repr

/-- The effect of damage on the operation that met it (R140). -/
inductive Effect where
  | none | notApplied | applied
  deriving DecidableEq, Repr

/-- The fault report, filled (R145). -/
structure FaultReport where
  kind : UrgentKind
  item : FaultItem
  op : Option Operation
  effect : Effect
  time : Nat
  timeValid : Bool
  returnState : Option Service
  multiCheckWord : Bool
  multiSelfCheck : Bool
  multiReadback : Bool
  deriving DecidableEq, Repr

/-- The contained faults, in the order of R142. -/
inductive Contained where
  | trackFailed | contactFault | stuckKey | commutatorFault | lockNotEnergized | lowFeed | highFeed
  deriving DecidableEq, Repr

/-- The outcome of the last RESUME (R152). -/
inductive ResumeOutcome where
  | none | running | done
  | refused (r : RecordId)
  | lockdown
  deriving DecidableEq, Repr

/-- The integrity unit's own records. `damaged` lists the records whose content disagrees with their
check word, found by no verification yet; `poisoned` those a verification has found (R137). `stray` holds the
content of each static record that a repair has given one that spells no record of its kind (R149, R174). -/
structure Integrity where
  damaged : List RecordId
  poisoned : List RecordId
  digests : List (StaticId × Word)
  stray : List (StaticId × List Byte)
  scrubAt : Nat
  report : Option FaultReport
  resume : ResumeOutcome
  passAt : Nat
  passPoisoned : Option RecordId
  tallies : Vector Nat 7
  deriving DecidableEq, Repr

/-! ## Record unit -/

/-- Register event kinds, in the order of R154. -/
inductive EventKind where
  | bellSent | bellReceived | bellRelayed | accepted | refused | occupied | arrived | cancelled
  | cancelledByRestart | obstructionSet | obstructionCleared | opened | closed | arrivalRelease
  | switchedOut | switchedIn
  deriving DecidableEq, Repr

/-- What a block hands the record unit to register (R154): the optional fields of an entry. -/
structure EventInfo where
  kind : EventKind
  section_ : Option Nat
  cls : Option Nat
  acc : Option Nat
  groups : Option (List Nat)
  overlong : Bool
  meaning : Option Meaning
  relayed : Bool
  reason : Option Reason
  auto : Bool
  deriving DecidableEq, Repr

/-- A register entry (R153). -/
structure Entry where
  number : Nat
  time : Nat
  timeValid : Bool
  info : EventInfo
  deriving DecidableEq, Repr

/-- Notice kinds, in the order of R157. -/
inductive NoticeKind where
  | trackBob | trackFailed | lowFeed | highFeed | contactFault | lockNotEnergized | stuckKey
  | bellLost | bellNotRung | offer | lineBusy | addressClash | releaseNotTaken | commutatorFault
  | provingBroken | digestMismatch | stale | switchRefused | urgentFault | lockdown | registerHalf
  | registerOverwrite
  deriving DecidableEq, Repr

/-- A notice (R157). -/
structure Notice where
  kind : NoticeKind
  subject : Nat
  time : Nat
  timeValid : Bool
  deriving DecidableEq, Repr

/-- The record unit's state (section 9.4). -/
structure RecordUnit where
  register : List Entry
  nextNumber : Nat
  overwrite : Bool
  notices : List Notice
  overflow : Bool
  time : Nat
  timeValid : Bool
  deriving DecidableEq, Repr

/-! ## Panel port -/

/-- Response statuses (R162). -/
inductive Status where
  | ok | inProgress | busy | refused | badState | badArgument
  deriving DecidableEq, Repr

/-- A response: its status and its payload (section 11.3). -/
structure Response where
  status : Status
  payload : List Byte
  deriving DecidableEq, Repr

/-- The checks of LOAD END (R166). -/
inductive LoadCheck where
  | digest | missing | range | reference
  deriving DecidableEq, Repr

/-- The outcome of the last LOAD END. -/
inductive LoadOutcome where
  | none | running | passed
  | failed (c : LoadCheck) (item : Option StaticId)
  deriving DecidableEq, Repr

/-- The command in progress (R171); LOAD END with the image digest it carried. -/
inductive Timed where
  | loadEnd (digest : Word)
  | resume
  deriving DecidableEq, Repr

/-- One staged image record (R165). -/
structure Staged where
  item : StaticId
  content : List Byte
  deriving DecidableEq, Repr

/-- The panel port's records, with the response the last transaction was answered (absent where it
was given none). -/
structure PanelUnit where
  command : Option Timed
  staging : Option (List Staged)
  load : LoadOutcome
  response : Option Response
  deriving DecidableEq, Repr

/-! ## Scan chain outputs -/

/-- How a lamp is lit (00_scope.md). -/
inductive Attend where
  | off | slow | fast | steady
  deriving DecidableEq, Repr

/-- The period in ms and the duty in percent of a flashing lamp (00_scope.md). -/
structure Flash where
  period : Nat
  duty : Nat
  deriving DecidableEq, Repr

/-- The lamps of one section end (R121): the lit state lamp, the direction lamp, the attend lamp with
its flash where it flashes. -/
structure Lamps where
  state : SecState
  direction : Bool
  attend : Attend
  flash : Option Flash
  deriving DecidableEq, Repr

/-- The plain output latches as last written: the lamps and the bell outputs. -/
structure Latches where
  lamps : Vector Lamps 6
  bells : Vector Bool 6
  deriving DecidableEq, Repr

/-- Whether the part is held in reset, running its memory test, or running (R163). -/
inductive Power where
  | held | testing | running
  deriving DecidableEq, Repr

/-! ## The state -/

/-- The state of the part. `clock` is the part's own time (R159); `scanAt`, `tickAt` and `sampledAt`
are when the last scan, advance of the time of day and sample of each channel were; `scanned` says
that a scan has been made since power-on (R19), `judged` that the lanes have judged since LOAD END
(R54). `hasConfig` says that a configuration, and with it
the dynamic records, exist (R167). -/
structure State where
  pending : List Instr
  clock : Nat
  power : Power
  service : Service
  hasConfig : Bool
  cfg : Configuration
  channels : Vector Channel 12
  sampledAt : Vector Nat 12
  levers : Vector Lever 64
  collars : Vector Collar 64
  timers : Vector (Option Nat) 8
  outputs : Vector Output 48
  lanes : Vector Lanes 80
  judged : Bool
  laneErrA : BitVec 80
  laneErrB : BitVec 80
  bells : Vector BellEnd 6
  replay : Replay
  line : LineUnit
  ends : Vector EndDyn 6
  switch : SwitchRec
  integrity : Integrity
  records : RecordUnit
  panel : PanelUnit
  latches : Latches
  scanned : Bool
  scanAt : Nat
  tickAt : Nat
  deriving DecidableEq, Repr

/-! ## Values of records that are new or do not exist -/

/-- The absent configuration: no record exists (R163). -/
def Configuration.absent : Configuration where
  address := 0
  slowPeriod := 0
  slowDuty := 0
  fastPeriod := 0
  fastDuty := 0
  gsep := 0
  gend := 0
  channels := Vector.replicate 12 ⟨0, 0, 0, 0, 0, 0, 0, 0, 0, false⟩
  levers := Vector.replicate 64 ⟨none, none, none, none⟩
  timers := Vector.replicate 8 none
  exprs := []
  codes := Vector.replicate 24 none
  subs := Vector.replicate 16 none
  ends := Vector.replicate 6 none
  pairs := Vector.replicate 2 none

/-- An input open, with no agreement run. -/
def Input.open_ : Input := ⟨false, 0⟩

/-- A lever record as initialisation leaves it (R22). -/
def Lever.fresh : Lever where
  nContact := Input.open_
  rContact := Input.open_
  contactsRead := false
  position := .unknown
  contactFault := false
  stroke := none
  latch := false

/-- A channel record as initialisation leaves it (R2), for the nominal reference given. -/
def Channel.fresh (rnom : Nat) : Channel where
  f := rnom
  r := rnom
  decision := .occupied
  drop := 0
  pick := 0
  high := 0
  faultRun := 0
  interval := 0
  settle := 0
  cause := none
  clamp := .none
  bob := false
  lowFeed := false
  highFeed := false

/-- An output commanded off, with no mark and no disagreement, and its last monitor reading de-energized until the
first scan that makes readback (DESIGN CHOICE, log entry 15). -/
def Output.off : Output := ⟨false, false, false, false, 0, false, false⟩

/-- An expression's lanes before the first judgement (R54). -/
def Lanes.fresh : Lanes := ⟨false, false, none, false⟩

/-- A section record or mirror as it is created (R93, R95). -/
def View.fresh : View where
  state := .closed
  dir := .none
  acc := 0
  cls := none
  obstruction := false
  ownerFault := false
  localObs := .clear
  farStatus := none
  digest := .unknown
  gesture := false
  pending := none
  nextReq := 0
  proof := none
  refused := none
  autoCancel := false
  cancelRefused := false
  cancelDue := false
  cancelRetry := none

/-- A release record as it is created (section 6.4). -/
def Release.none : Release := ⟨.none, 0, .none⟩

/-- A commutator before its first reading (log entry 6). -/
def Commutator.fresh : Commutator := ⟨Input.open_, Input.open_, Input.open_, .blocked, false⟩

/-- A station record as it is created (R87). -/
def StationRec.created : StationRec := ⟨none, false, false, none⟩

/-- The dynamic part of a subscription entry as it is created (R89). -/
def SubEntry.fresh : SubEntry := ⟨.failed, none⟩

/-- The line unit's records of a section end as they are created. -/
def LineEnd.created : LineEnd := ⟨none, false, 0, none, none⟩

/-- The line unit as it is created, its idle gap at the moment given. At a power-on reset that is own time
0: no rule says when the line is first taken as idle (DESIGN CHOICE, log entry 15). -/
def LineUnit.fresh (idleAt : Nat) : LineUnit where
  queue := []
  attempt := 0
  sending := none
  idleAt := idleAt
  cut := none
  owedOpen := none
  reportAt := 0
  stations := Vector.replicate 16 StationRec.created
  subs := Vector.replicate 16 SubEntry.fresh
  ends := Vector.replicate 6 LineEnd.created

/-- An empty replay queue. The pause after the last code rung is forgotten with it: the spec does not
say that it outlasts a queue re-initialised or emptied (DESIGN CHOICE, log entry 29). -/
def Replay.empty : Replay := ⟨[], 0, 0, none, 0⟩

/-- The bell unit's records of a section end as they are created (R56, R72). -/
def BellEnd.fresh : BellEnd := ⟨Input.open_, .holdOff none, none, none, none, false⟩

/-- Lamps unlit. -/
def Lamps.off : Lamps := ⟨.closed, false, .off, none⟩

/-- The machine right after a power-on reset has been taken and its memory test begun (R163): no
record exists, the register and the queue are empty, the time of day is 0 and invalid (R160). -/
def State.reset : State where
  pending := []
  clock := 0
  power := .testing
  service := .unloaded
  hasConfig := false
  cfg := Configuration.absent
  channels := Vector.replicate 12 (Channel.fresh 0)
  sampledAt := Vector.replicate 12 0
  levers := Vector.replicate 64 Lever.fresh
  collars := Vector.replicate 64 ⟨false, none⟩
  timers := Vector.replicate 8 none
  outputs := Vector.replicate 48 Output.off
  lanes := Vector.replicate 80 Lanes.fresh
  judged := false
  laneErrA := 0
  laneErrB := 0
  bells := Vector.replicate 6 BellEnd.fresh
  replay := Replay.empty
  line := LineUnit.fresh 0
  ends := Vector.replicate 6 ⟨View.fresh, Release.none, none, Commutator.fresh⟩
  switch := ⟨.inn, none, Input.open_, false, none⟩
  integrity := ⟨[], [], [], [], 0, none, .none, 0, none, Vector.replicate 7 0⟩
  records := ⟨[], 0, false, [], false, 0, false⟩
  panel := ⟨none, none, .none, none⟩
  latches := ⟨Vector.replicate 6 Lamps.off, Vector.replicate 6 false⟩
  scanned := false
  scanAt := 0
  tickAt := 0

end Sys2Proof.Machine
end

