-- ==== Sys2Proof/Machine/Ops.lean ====
section
/-! DEFINITION. The named operations over the records: reading and changing one record, the service
predicates, notices, register entries, contained faults, poison, and the configuration's lookups. -/

namespace Sys2Proof.Machine

open Sys2Proof

/-! ## Own time -/

/-- The state with its own time moved on to a moment, where it has not reached it (log entry 2). -/
def State.reach (s : State) (t : Nat) : State := { s with clock := max s.clock t }

/-! ## Changing one record -/

def State.updChannel (s : State) (c : ChanNo) (f : Channel → Channel) : State :=
  { s with channels := upd s.channels c f }
def State.updLever (s : State) (l : LeverNo) (f : Lever → Lever) : State :=
  { s with levers := upd s.levers l f }
def State.updCollar (s : State) (l : LeverNo) (f : Collar → Collar) : State :=
  { s with collars := upd s.collars l f }
def State.updOutput (s : State) (n : OutputNo) (f : Output → Output) : State :=
  { s with outputs := upd s.outputs n f }
def State.updBell (s : State) (e : EndNo) (f : BellEnd → BellEnd) : State :=
  { s with bells := upd s.bells e f }
def State.updEnd (s : State) (e : EndNo) (f : EndDyn → EndDyn) : State :=
  { s with ends := upd s.ends e f }
def State.updView (s : State) (e : EndNo) (f : View → View) : State :=
  s.updEnd e fun d => { d with view := f d.view }
def State.updComm (s : State) (e : EndNo) (f : Commutator → Commutator) : State :=
  s.updEnd e fun d => { d with comm := f d.comm }
def State.updLine (s : State) (f : LineUnit → LineUnit) : State := { s with line := f s.line }
def State.updLineEnd (s : State) (e : EndNo) (f : LineEnd → LineEnd) : State :=
  s.updLine fun u => { u with ends := upd u.ends e f }
def State.updStation (s : State) (a : Addr) (f : StationRec → StationRec) : State :=
  s.updLine fun u => { u with stations := upd u.stations a f }
def State.updSub (s : State) (i : SubNo) (f : SubEntry → SubEntry) : State :=
  s.updLine fun u => { u with subs := upd u.subs i f }
def State.updIntegrity (s : State) (f : Integrity → Integrity) : State :=
  { s with integrity := f s.integrity }
def State.updPanel (s : State) (f : PanelUnit → PanelUnit) : State := { s with panel := f s.panel }
def State.updSwitch (s : State) (f : SwitchRec → SwitchRec) : State := { s with switch := f s.switch }

/-! ## Reading one record -/

def State.channel (s : State) (c : ChanNo) : Channel := look s.channels c
def State.lever (s : State) (l : LeverNo) : Lever := look s.levers l
def State.view (s : State) (e : EndNo) : View := (look s.ends e).view
def State.release (s : State) (e : EndNo) : Release := (look s.ends e).release
def State.demand (s : State) (e : EndNo) : Option Demand := (look s.ends e).demand
def State.comm (s : State) (e : EndNo) : Commutator := (look s.ends e).comm
def State.bell (s : State) (e : EndNo) : BellEnd := look s.bells e
def State.lineEnd (s : State) (e : EndNo) : LineEnd := look s.line.ends e
def State.stationRec (s : State) (a : Addr) : StationRec := look s.line.stations a
def State.sub (s : State) (i : SubNo) : SubEntry := look s.line.subs i
def State.output (s : State) (n : OutputNo) : Output := look s.outputs n

/-! ## Index lists -/

def allEnds : List EndNo := List.finRange 6
def allLevers : List LeverNo := List.finRange 64
def allOutputs : List OutputNo := List.finRange 48
def allExprs : List ExprNo := List.finRange 80
def allChannels : List ChanNo := List.finRange 12
def allTimers : List TimerNo := List.finRange 8
def allCodes : List CodeNo := List.finRange 24
def allSubs : List SubNo := List.finRange 16
def allPairs : List PairNo := List.finRange 2
/-- The station addresses, 1 to 15. -/
def allAddrs : List Addr := (List.finRange 16).tail

/-- A change made at each of a list of items in turn. -/
def State.each {α : Type} (s : State) (xs : List α) (f : State → α → State) : State := xs.foldl f s

/-! ## The record unit: notices (R157) and register entries (R155) -/

/-- A notice is taken: it joins the queue as its newest, or is lost and sets the overflow flag when
the queue holds 32 (R157). -/
def RecordUnit.notify (r : RecordUnit) (kind : NoticeKind) (subject : Nat) : RecordUnit :=
  if r.notices.length < Config.noticePlaces then
    { r with notices := r.notices ++ [⟨kind, subject, r.time, r.timeValid⟩] }
  else { r with overflow := true }

/-- An entry as it is taken: the next entry number, and the time of day as it stands (R153). -/
def RecordUnit.entry (r : RecordUnit) (info : EventInfo) : Entry :=
  ⟨r.nextNumber, r.time, r.timeValid, info⟩

/-- An entry is taken into the register (R155): the count rises, with REGISTER HALF at 128; at 256
the oldest entry is lost, with REGISTER OVERWRITE where the overwrite mark was clear. -/
def RecordUnit.take (r : RecordUnit) (info : EventInfo) : RecordUnit :=
  let next := (r.nextNumber + 1) % 65536
  if r.register.length < Config.registerPlaces then
    let r' := { r with register := r.register ++ [r.entry info], nextNumber := next }
    if r.register.length + 1 = Config.registerHalf then r'.notify .registerHalf 0 else r'
  else
    let r' := { r with register := r.register.tail ++ [r.entry info], nextNumber := next,
                       overwrite := true }
    if r.overwrite then r' else r'.notify .registerOverwrite 0

def State.notify (s : State) (kind : NoticeKind) (subject : Nat) : State :=
  { s with records := s.records.notify kind subject }

def State.register (s : State) (info : EventInfo) : State :=
  { s with records := s.records.take info }

/-- An entry with no optional field: the kind alone (R154). -/
def EventInfo.plain (kind : EventKind) : EventInfo where
  kind := kind
  section_ := none
  cls := none
  acc := none
  groups := none
  overlong := false
  meaning := none
  relayed := false
  reason := none
  auto := false

/-- An entry of an event of a section (R154). -/
def EventInfo.ofSection (kind : EventKind) (sectionId : Nat) : EventInfo :=
  { EventInfo.plain kind with section_ := some sectionId }

/-! ## Contained faults (R142) -/

/-- Place of a contained fault among the seven tallies, in the order of R142. -/
def Contained.index : Contained → Fin 7
  | .trackFailed => 0
  | .contactFault => 1
  | .stuckKey => 2
  | .commutatorFault => 3
  | .lockNotEnergized => 4
  | .lowFeed => 5
  | .highFeed => 6

/-- The notice of a contained fault, which has its name. -/
def Contained.notice : Contained → NoticeKind
  | .trackFailed => .trackFailed
  | .contactFault => .contactFault
  | .stuckKey => .stuckKey
  | .commutatorFault => .commutatorFault
  | .lockNotEnergized => .lockNotEnergized
  | .lowFeed => .lowFeed
  | .highFeed => .highFeed

/-- A contained fault is reported: its notice is raised and its tally rises by 1, up to 255 (R142). -/
def State.contained (s : State) (k : Contained) (subject : Nat) : State :=
  (s.notify k.notice subject).updIntegrity fun g =>
    { g with tallies := upd g.tallies k.index fun n => min (n + 1) Config.tallyMax }

/-! ## Poison (R137) -/

def State.isPoisoned (s : State) (r : RecordId) : Bool := s.integrity.poisoned.contains r
def State.isDamaged (s : State) (r : RecordId) : Bool := s.integrity.damaged.contains r
/-- A static record is poisoned. -/
def State.badStatic (s : State) (r : StaticId) : Bool := s.isPoisoned (.fixed r)
/-- Either part of a lever record is poisoned (R25, R48). -/
def State.badLever (s : State) (l : LeverNo) : Bool :=
  s.badStatic (.lever l) || s.isPoisoned (.lever l)
/-- Either part of a channel record is poisoned (R13, R43). -/
def State.badChannel (s : State) (c : ChanNo) : Bool :=
  s.badStatic (.channel c) || s.isPoisoned (.channel c)

/-! ## The configuration -/

def State.endCfg (s : State) (e : EndNo) : Option EndCfg := look s.cfg.ends e
def State.leverCfg (s : State) (l : LeverNo) : LeverCfg := look s.cfg.levers l
def State.channelCfg (s : State) (c : ChanNo) : ChannelCfg := look s.cfg.channels c
def State.pairCfg (s : State) (p : PairNo) : Option PairCfg := look s.cfg.pairs p

/-- Gsep in ms: as loaded; the default where not set or while the STATION CONFIGURATION is poisoned
(R139). -/
def State.gsep (s : State) : Nat :=
  if s.badStatic .station || s.cfg.gsep == 0 then Config.defaultGsep else s.cfg.gsep
/-- Gend in ms, in the same way. -/
def State.gend (s : State) : Nat :=
  if s.badStatic .station || s.cfg.gend == 0 then Config.defaultGend else s.cfg.gend

/-- Trains may run toward this station on the end (section 6.1). -/
def EndCfg.canAccept (c : EndCfg) : Bool :=
  match c.kind with
  | .inwardOneWay | .twoWay => true
  | .outwardOneWay => false

/-- Trains may run away from this station on the end (section 6.1). -/
def EndCfg.canRear (c : EndCfg) : Bool :=
  match c.kind with
  | .outwardOneWay | .twoWay => true
  | .inwardOneWay => false

/-- The direction that is toward this end: INWARD at the owner, OUTWARD at the far end. -/
def EndCfg.toHere (c : EndCfg) : Direction := if c.owner then .inward else .outward
/-- The direction toward the neighbour. -/
def EndCfg.away (c : EndCfg) : Direction := if c.owner then .outward else .inward

/-- The section record or mirror of an end, as the integrity unit names it. -/
def EndCfg.viewRecord (c : EndCfg) (e : EndNo) : RecordId :=
  if c.owner then .sectionRec e else .mirror e

/-- The end at which this station configures a section id with a neighbour (R84). -/
def State.endWith (s : State) (sectionId : Nat) (neighbour : Nat) : Option EndNo :=
  allEnds.find? fun e =>
    match s.endCfg e with
    | some c => c.section_ == sectionId && c.neighbour.val == neighbour
    | none => false

/-- The ends of the sections shared with a station (R84). -/
def State.endsWith (s : State) (a : Addr) : List EndNo :=
  allEnds.filter fun e =>
    match s.endCfg e with
    | some c => c.neighbour == a
    | none => false

/-- The through pair an end belongs to (section 7.1). -/
def State.pairOf (s : State) (e : EndNo) : Option PairNo :=
  allPairs.find? fun p =>
    match s.pairCfg p with
    | some c => c.endA == e || c.endB == e
    | none => false

/-- The other end of the through pair. -/
def State.partner (s : State) (e : EndNo) : Option EndNo :=
  match s.pairOf e with
  | none => none
  | some p =>
    match s.pairCfg p with
    | none => none
    | some c => some (if c.endA == e then c.endB else c.endA)

/-- The ends of the station's through pairs. -/
def State.pairEnds (s : State) : List EndNo := allEnds.filter fun e => (s.pairOf e).isSome

/-- The station has a through pair, and so a switching key (R124). -/
def State.hasPairs (s : State) : Bool := allPairs.any fun p => (s.pairCfg p).isSome

/-- A configured end that can be accepting. -/
def State.canAccept (s : State) (e : EndNo) : Bool := ((s.endCfg e).map EndCfg.canAccept).getD false
/-- A configured end that can be rear. -/
def State.canRear (s : State) (e : EndNo) : Bool := ((s.endCfg e).map EndCfg.canRear).getD false

/-- The through accepting end of a through rear end: its partner, where the end can be rear and the
partner accepting (section 7.1). -/
def State.throughAccepting (s : State) (e : EndNo) : Option EndNo :=
  match s.partner e with
  | none => none
  | some a => if s.canRear e && s.canAccept a then some a else none

/-- The end is a through rear end. -/
def State.isThroughRear (s : State) (e : EndNo) : Bool := (s.throughAccepting e).isSome

/-- The through rear end of which an end is the through accepting end. -/
def State.throughRearOf (s : State) (a : EndNo) : Option EndNo :=
  match s.partner a with
  | none => none
  | some e => if s.throughAccepting e = some a then some e else none

/-- The lever that names a lock output, 1 to 32 as outputs 0 to 31 here, or a control output (R20). -/
def Configuration.leverOf (c : Configuration) (n : OutputNo) : Option LeverNo :=
  allLevers.find? fun l =>
    if n.val < 32 then (look c.levers l).lock.map (·.val) == some n.val
    else (look c.levers l).control.map (·.val) == some (n.val - 32)

/-- The lock output of a lever, as an output number. -/
def LeverCfg.lockOutput (c : LeverCfg) : Option OutputNo :=
  c.lock.map fun k => ⟨k.val, by omega⟩
/-- The control output of a lever, as an output number (control output n is 32 + n). -/
def LeverCfg.controlOutput (c : LeverCfg) : Option OutputNo :=
  c.control.map fun k => ⟨32 + k.val, by omega⟩

/-- The expression of a lever and kind, by its number (R40). -/
def Configuration.exprOf (c : Configuration) (l : LeverNo) (k : ExprKind) : Option ExprNo :=
  allExprs.find? fun x =>
    match c.exprs[x.val]? with
    | some e => e.lever == l && e.kind == k
    | none => false

/-! ## Service state predicates -/

/-- The return state of a filled fault report (R145). -/
def State.returnState (s : State) : Option Service := s.integrity.report.bind (·.returnState)

/-- The part is running: neither held in reset nor in its memory test (R163). -/
def State.running (s : State) : Bool := s.power == .running

/-- The configuration and the dynamic records exist: LOADED, PROVING, IN SERVICE, RESTRICTIVE, and
LOCKDOWN save after a failed memory test (R2, R22, R148). -/
def State.live (s : State) : Bool := s.running && s.hasConfig

/-- The line unit is working, bell working is active and the section unit takes events: PROVING, IN
SERVICE, or RESTRICTIVE with return state PROVING (R56, R75, R122). -/
def State.working (s : State) : Bool :=
  s.live &&
    match s.service with
    | .proving | .inService => true
    | .restrictive => s.returnState == some .proving
    | _ => false

/-- The evaluator works: LOADED, PROVING, IN SERVICE and RESTRICTIVE (R54). -/
def State.judging (s : State) : Bool :=
  s.live &&
    match s.service with
    | .loaded | .proving | .inService | .restrictive => true
    | _ => false

/-- The station is switched out: OUT or IN PENDING. -/
def State.switchedOut (s : State) : Bool :=
  match s.switch.state with
  | .out | .inPending => true
  | .inn => false

/-- The NOTICE line: asserted while a notice is queued (R157), negated while the pin is held (R163). -/
def State.noticeLine (s : State) : Bool := s.power != .held && !s.records.notices.isEmpty

end Sys2Proof.Machine
end

