-- ==== Sys2Proof/Machine/Formats.lean ====
section
/-! DEFINITION. The byte layouts of spec/11_formats.md: the CRC, the coded values, telegrams, the
records of the configuration image, and the numbering of records for reports and scrubbing. -/

namespace Sys2Proof.Machine

open Sys2Proof

/-! ## Numbers and the CRC-16 (R173) -/

/-- A number in two bytes, high byte first (section 11.1). -/
def two (n : Nat) : List Byte := [byte (n / 256), byte n]
/-- A number in three bytes, high byte first. -/
def three (n : Nat) : List Byte := [byte (n / 65536), byte (n / 256), byte n]
/-- A word in two bytes, high byte first. -/
def wordBytes (w : Word) : List Byte := two w.toNat

/-- The number in two bytes. -/
def num2 (a b : Byte) : Nat := a.toNat * 256 + b.toNat
/-- The number in three bytes. -/
def num3 (a b c : Byte) : Nat := (a.toNat * 256 + b.toNat) * 256 + c.toNat
/-- The word in two bytes. -/
def wordOf (a b : Byte) : Word := BitVec.ofNat 16 (num2 a b)

/-- One shift of the CRC register, polynomial 0x1021, most significant bit first. -/
def crcShift (c : Word) : Word :=
  if c.toNat < 0x8000 then c <<< 1 else (c <<< 1) ^^^ 0x1021

/-- One byte taken into the CRC. -/
def crcByte (c : Word) (b : Byte) : Word :=
  (List.range 8).foldl (fun c _ => crcShift c) (c ^^^ (b.zeroExtend 16 <<< 8))

/-- A CRC carried on over further bytes. -/
def crcFrom (c : Word) (bs : List Byte) : Word := bs.foldl crcByte c

/-- The CRC-16 of the part: from 0xFFFF, no final inversion (R173). -/
def crc16 (bs : List Byte) : Word := crcFrom 0xFFFF bs

/-! ## Coded values (section 11.1) -/

def serviceCode : Service → Nat
  | .unloaded => 0
  | .loading => 1
  | .loaded => 2
  | .proving => 3
  | .inService => 4
  | .restrictive => 5
  | .lockdown => 6

def serviceOf : Nat → Option Service
  | 0 => some .unloaded
  | 1 => some .loading
  | 2 => some .loaded
  | 3 => some .proving
  | 4 => some .inService
  | 5 => some .restrictive
  | 6 => some .lockdown
  | _ => none

def switchCode : SwitchState → Nat
  | .inn => 0
  | .out => 1
  | .inPending => 2

def switchOf : Nat → Option SwitchState
  | 0 => some .inn
  | 1 => some .out
  | 2 => some .inPending
  | _ => none

def causeCode : Option SwitchCause → Nat
  | none => 0
  | some .key => 1
  | some .fault => 2
  | some .sectionClosed => 3
  | some .service => 4

def secStateCode : SecState → Nat
  | .closed => 0
  | .blocked => 1
  | .clear => 2
  | .occupied => 3

def secStateOf : Nat → Option SecState
  | 0 => some .closed
  | 1 => some .blocked
  | 2 => some .clear
  | 3 => some .occupied
  | _ => none

def dirCode : Direction → Nat
  | .none => 0
  | .inward => 1
  | .outward => 2

def dirOf : Nat → Option Direction
  | 0 => some .none
  | 1 => some .inward
  | 2 => some .outward
  | _ => none

def kindOfSectionCode : SecKind → Nat
  | .inwardOneWay => 1
  | .outwardOneWay => 2
  | .twoWay => 3

def sectionKindOf : Nat → Option SecKind
  | 1 => some .inwardOneWay
  | 2 => some .outwardOneWay
  | 3 => some .twoWay
  | _ => none

def commCode : Option CommPos → Nat
  | some .blocked => 0
  | some .clear => 1
  | some .occupied => 2
  | none => 3

def commOf : Nat → Option CommPos
  | 0 => some .blocked
  | 1 => some .clear
  | 2 => some .occupied
  | _ => none

def relCode : RelState → Nat
  | .none => 0
  | .available => 1
  | .consumed => 2

def relOf : Nat → Option RelState
  | 0 => some .none
  | 1 => some .available
  | 2 => some .consumed
  | _ => none

def reqKindCode : ReqKind → Nat
  | .accept => 1
  | .occupy => 2
  | .arrived => 3
  | .cancel => 4

def reqKindOf : Nat → Option ReqKind
  | 1 => some .accept
  | 2 => some .occupy
  | 3 => some .arrived
  | 4 => some .cancel
  | _ => none

def reasonCode : Reason → Nat
  | .notInService => 1
  | .notBlocked => 2
  | .obstruction => 3
  | .noOffer => 4
  | .clearance => 5
  | .homeLever => 6
  | .farSilent => 7
  | .releaseHeld => 8
  | .requestPending => 9
  | .fault => 10
  | .lineBusy => 11
  | .lapsed => 12
  | .releaseUsed => 13
  | .notProven => 14
  | .switched => 15
  | .offerOutstanding => 16
  | .throughLever => 17

def reasonOf : Nat → Option Reason
  | 1 => some .notInService
  | 2 => some .notBlocked
  | 3 => some .obstruction
  | 4 => some .noOffer
  | 5 => some .clearance
  | 6 => some .homeLever
  | 7 => some .farSilent
  | 8 => some .releaseHeld
  | 9 => some .requestPending
  | 10 => some .fault
  | 11 => some .lineBusy
  | 12 => some .lapsed
  | 13 => some .releaseUsed
  | 14 => some .notProven
  | 15 => some .switched
  | 16 => some .offerOutstanding
  | 17 => some .throughLever
  | _ => none

def reasonCodeOpt : Option Reason → Nat
  | none => 0
  | some r => reasonCode r

def outcomeCode : Outcome → Nat
  | .taken => 0
  | .refused r => reasonCode r

def outcomeOf (n : Nat) : Option Outcome :=
  if n = 0 then some .taken else (reasonOf n).map .refused

def meaningCode : Meaning → Nat
  | .attention => 1
  | .offer _ => 2
  | .entering => 3
  | .outOfSection => 4
  | .cancel => 5
  | .testing => 6
  | .other => 7
  | .obstruction => 8
  | .unrecognised => 9

/-- The class a meaning carries: that of an OFFER. -/
def Meaning.cls : Meaning → Option Nat
  | .offer c => some c
  | _ => none

def trackCode : TrackState → Nat
  | .clear => 0
  | .shunted => 1
  | .occupied => 2
  | .failed => 3

def trackOf : Nat → Option TrackState
  | 0 => some .clear
  | 1 => some .shunted
  | 2 => some .occupied
  | 3 => some .failed
  | _ => none

def decisionCode : Decision → Nat
  | .clear => 0
  | .dropping => 1
  | .occupied => 2
  | .picking => 3
  | .failed => 4

def leverPosCode : LeverPos → Nat
  | .normal => 0
  | .reverse => 1
  | .mid => 2
  | .unknown => 3

def phaseCode : KeyPhase → Nat
  | .idle => 0
  | .pressed _ => 1
  | .gap => 2
  | .holdOff _ => 3
  | .ignored => 4

def operationCode : Operation → Nat
  | .scrub => 1
  | .lockEvaluation => 2
  | .sectionUpdate => 3
  | .trackUpdate => 4
  | .telegramBuild => 5
  | .panelRead => 6

def effectCode : Effect → Nat
  | .none => 0
  | .notApplied => 1
  | .applied => 2

def urgentCode : UrgentKind → Nat
  | .checkWord => 1
  | .selfCheck => 2
  | .outputReadback => 3

def eventCode : EventKind → Nat
  | .bellSent => 1
  | .bellReceived => 2
  | .bellRelayed => 3
  | .accepted => 4
  | .refused => 5
  | .occupied => 6
  | .arrived => 7
  | .cancelled => 8
  | .cancelledByRestart => 9
  | .obstructionSet => 10
  | .obstructionCleared => 11
  | .opened => 12
  | .closed => 13
  | .arrivalRelease => 14
  | .switchedOut => 15
  | .switchedIn => 16

def noticeCode : NoticeKind → Nat
  | .trackBob => 1
  | .trackFailed => 2
  | .lowFeed => 3
  | .highFeed => 4
  | .contactFault => 5
  | .lockNotEnergized => 6
  | .stuckKey => 7
  | .bellLost => 8
  | .bellNotRung => 9
  | .offer => 10
  | .lineBusy => 11
  | .addressClash => 12
  | .releaseNotTaken => 13
  | .commutatorFault => 14
  | .provingBroken => 15
  | .digestMismatch => 16
  | .stale => 17
  | .switchRefused => 18
  | .urgentFault => 19
  | .lockdown => 20
  | .registerHalf => 21
  | .registerOverwrite => 22

/-! ## Record kinds and indices -/

/-- Record kind code of a static record (section 11.1). -/
def StaticId.kindCode : StaticId → Nat
  | .station => 1
  | .channel _ => 3
  | .lever _ => 5
  | .timer _ => 8
  | .expr _ => 10
  | .code _ => 11
  | .sub _ => 19
  | .sectionEnd _ => 21
  | .pair _ => 25

/-- Index of a static record within its kind, 0 where the kind has none. -/
def StaticId.index : StaticId → Nat
  | .station => 0
  | .channel c => c.val + 1
  | .lever l => l.val + 1
  | .timer t => t.val + 1
  | .expr x => x.val + 1
  | .code k => k.val + 1
  | .sub i => i.val + 1
  | .sectionEnd e => e.val + 1
  | .pair p => p.val + 1

/-- An index, 1 upward, within a collection. -/
def finOf (n i : Nat) : Option (Fin n) := if h : 1 ≤ i ∧ i - 1 < n then some ⟨i - 1, h.2⟩ else none

/-- The static record an image record kind and index name, where they name one (section 10.4). -/
def StaticId.of (kind index : Nat) : Option StaticId :=
  match kind with
  | 1 => if index = 0 then some .station else none
  | 3 => (finOf 12 index).map .channel
  | 5 => (finOf 64 index).map .lever
  | 8 => (finOf 8 index).map .timer
  | 10 => (finOf 80 index).map .expr
  | 11 => (finOf 24 index).map .code
  | 19 => (finOf 16 index).map .sub
  | 21 => (finOf 6 index).map .sectionEnd
  | 25 => (finOf 2 index).map .pair
  | _ => none

/-- Record kind code of a record (section 11.1; the rows of section 8.1 in order). -/
def RecordId.kindCode : RecordId → Nat
  | .fixed r => r.kindCode
  | .digest _ => 2
  | .channel _ => 4
  | .lever _ => 6
  | .collars => 7
  | .timer _ => 9
  | .key _ => 12
  | .offer _ => 13
  | .outstanding _ => 14
  | .replay => 15
  | .queue => 16
  | .stationRec _ => 17
  | .freshness _ => 18
  | .sub _ => 20
  | .sectionRec _ => 22
  | .mirror _ => 23
  | .release _ => 24
  | .demand _ => 26
  | .switch => 27

/-- Index of a record; a DIGEST ENTRY's is the covered kind and index (section 11.1), a STATION
RECORD's the address. -/
def RecordId.index : RecordId → Nat
  | .fixed r => r.index
  | .digest r => r.kindCode * 256 + r.index
  | .channel c => c.val + 1
  | .lever l => l.val + 1
  | .timer t => t.val + 1
  | .key e | .offer e | .outstanding e | .freshness e => e.val + 1
  | .sectionRec e | .mirror e | .release e | .demand e => e.val + 1
  | .stationRec a => a.val
  | .sub i => i.val + 1
  | .collars | .replay | .queue | .switch => 0

/-- Record kind and index of what a fault concerns: MEMORY is 28 and OUTPUT 29. -/
def FaultItem.kindCode : FaultItem → Nat
  | .record r => r.kindCode
  | .memory => 28
  | .output _ => 29

def FaultItem.index : FaultItem → Nat
  | .record r => r.index
  | .memory => 0
  | .output n => n.val + 1

/-- A record is static: taken from the image, or a digest entry (section 8.1). -/
def RecordId.isStatic : RecordId → Bool
  | .fixed _ | .digest _ => true
  | _ => false

/-! ## The records that exist, and the scrub order (sections 8.1 and 8.2) -/

/-- The static records of a configuration, in scrub order. -/
def Configuration.statics (c : Configuration) : List StaticId :=
  [.station]
    ++ allChannels.map .channel
    ++ allLevers.map .lever
    ++ allTimers.map .timer
    ++ (allExprs.filter fun x => x.val < c.exprs.length).map .expr
    ++ allCodes.map .code
    ++ allSubs.map .sub
    ++ (allEnds.filter fun e => (look c.ends e).isSome).map .sectionEnd
    ++ (allPairs.filter fun p => (look c.pairs p).isSome).map .pair

/-- Every record with a check word that exists, in scrub order: the rows of the table of section
8.1, and within one kind the order of the index. -/
def State.scrubOrder (s : State) : List RecordId :=
  let st := s.cfg.statics
  let has := fun (f : EndCfg → Bool) => allEnds.filter fun e =>
    match s.endCfg e with
    | some c => f c
    | none => false
  let kinds := fun (k : Nat) => (st.filter fun r => r.kindCode == k).map RecordId.fixed
  let ends := has fun _ => true
  kinds 1 ++ st.map .digest ++ kinds 3 ++ allChannels.map .channel ++ kinds 5
    ++ allLevers.map .lever ++ [.collars] ++ kinds 8 ++ allTimers.map .timer ++ kinds 10 ++ kinds 11
    ++ ends.map .key ++ ends.map .offer ++ ends.map .outstanding ++ [.replay] ++ [.queue]
    ++ (allAddrs.filter fun a => a != s.cfg.address).map .stationRec
    ++ (has fun c => !c.owner).map .freshness ++ kinds 19 ++ allSubs.map .sub ++ kinds 21
    ++ (has fun c => c.owner).map .sectionRec ++ (has fun c => !c.owner).map .mirror
    ++ (has fun c => c.canRear).map .release ++ kinds 25
    ++ (ends.filter fun e => s.isThroughRear e).map .demand ++ [.switch]

/-! ## Telegrams (section 11.2) -/

/-- Kind code of a telegram. -/
def Telegram.kindCode : Telegram → Nat
  | .opening _ => 1
  | .openAck _ => 2
  | .sectionState _ => 3
  | .endReport _ => 4
  | .request _ => 5
  | .answer _ => 6
  | .bell _ => 7
  | .failed _ => 8

/-- State in bits 0 and 1, direction in bits 2 and 3. -/
def stateByte (st : SecState) (d : Direction) : Byte := byte (secStateCode st + 4 * dirCode d)

def OpenEntry.bytes (o : OpenEntry) : List Byte :=
  [byte o.section_, byte (if o.owner then 0 else 1)] ++ wordBytes o.digest

def EndLine.bytes (l : EndLine) : List Byte :=
  [byte l.section_,
   byte (commCode l.commutator + 4 * relCode l.release + 16 * bit l.proofComplete),
   byte l.releaseNo]

/-- The payload of a telegram (the table of section 11.2). -/
def Telegram.payload : Telegram → List Byte
  | .opening es => byte es.length :: es.flatMap OpenEntry.bytes
  | .openAck m => [byte m.section_, byte (bit m.digestsMatch), stateByte m.state m.dir]
  | .sectionState m =>
    [byte m.section_, stateByte m.state m.dir, byte m.acc, byte (m.cls.getD 0),
     byte (bit m.obstruction + 2 * bit m.ownerFault + 4 * bit m.echo.isSome)]
      ++ match m.echo with
         | some x => [byte x.number, byte (outcomeCode x.outcome)]
         | none => []
  | .endReport m =>
    [byte (serviceCode m.service), byte (switchCode m.switch), byte m.ends.length]
      ++ m.ends.flatMap EndLine.bytes ++ [byte m.tracks.length]
      ++ m.tracks.flatMap fun t => [byte (t.1.val + 1), byte (trackCode t.2)]
  | .request m =>
    [byte m.section_, byte m.number, byte (reqKindCode m.kind), byte m.cls]
  | .answer m => [byte m.section_, byte m.number, byte (outcomeCode m.outcome)]
  | .bell m =>
    [byte m.section_, byte (bit m.overlong + 2 * bit m.relayed), byte m.groups.length]
      ++ m.groups.map byte
  | .failed ids => byte ids.length :: ids.map byte

/-- What a telegram's CRC covers: from the length byte to the last payload byte (R173). -/
def Telegram.covered (h : Header) (t : Telegram) : List Byte :=
  [byte (t.payload.length + 7), byte h.dst, byte h.src, byte t.kindCode] ++ t.payload

/-- The characters of a telegram: start byte, length, destination, source, kind, payload and CRC. -/
def Telegram.chars (h : Header) (t : Telegram) : List Byte :=
  Config.startByte :: t.covered h ++ wordBytes (crc16 (t.covered h))

/-- The number of characters of a telegram. -/
def Telegram.length (t : Telegram) : Nat := t.payload.length + 7

/-- A class as R172 judges it in a SECTION STATE: up to 7, present exactly in CLEAR and OCCUPIED. -/
def classFits (st : SecState) (cls : Option Nat) : Bool :=
  match st, cls with
  | .closed, none | .blocked, none => true
  | .clear, some c | .occupied, some c => 1 ≤ c && c ≤ 7
  | _, _ => false

/-- The contents lie within the encodings of section 11.2 (R172). R172 does not say that a section id outside 1 to
63 fails the check, nor that a REQUEST other than ACCEPT with a class of 1 to 7 does: both are taken (DESIGN
CHOICE, log entry 14). -/
def Telegram.fits : Telegram → Bool
  | .opening es => es.length ≤ 6 && es.all fun e => e.section_ < 256
  | .openAck m => m.section_ < 256
  | .sectionState m =>
    m.section_ < 256 && m.acc < 256 && classFits m.state m.cls &&
      match m.echo with
      | some x => x.number < 256
      | none => true
  | .endReport m =>
    m.ends.length ≤ 6 && m.tracks.length ≤ 12 &&
      m.ends.all fun l => l.section_ < 256 && l.releaseNo < 256
  | .request m =>
    m.section_ < 256 && m.number < 256 && m.cls ≤ 7 && !(m.kind == .accept && m.cls == 0)
  | .answer m => m.section_ < 256 && m.number < 256
  | .bell m =>
    m.section_ < 256 && 1 ≤ m.groups.length && m.groups.length ≤ 5 && m.groups.all (· < 256)
  | .failed ids => ids.length ≤ 6 && ids.all (· < 256)

def parseOpenEntries : Nat → List Byte → Option (List OpenEntry × List Byte)
  | 0, bs => some ([], bs)
  | n + 1, sec :: role :: d1 :: d0 :: bs =>
    if role.toNat < 2 then
      (parseOpenEntries n bs).map fun r =>
        (⟨sec.toNat, role.toNat == 0, wordOf d1 d0⟩ :: r.1, r.2)
    else none
  | _ + 1, _ => none

def parseEndLines : Nat → List Byte → Option (List EndLine × List Byte)
  | 0, bs => some ([], bs)
  | n + 1, sec :: x :: no :: bs =>
    match relOf (x.toNat / 4 % 4) with
    | some rel =>
      (parseEndLines n bs).map fun r =>
        (⟨sec.toNat, commOf (x.toNat % 4), rel, no.toNat, x.toNat / 16 % 2 == 1⟩ :: r.1, r.2)
    | none => none
  | _ + 1, _ => none

/-- The published tracks of an END REPORT. A channel outside 1 to 12 fails the check: R172 does not name it
(DESIGN CHOICE, log entry 14). -/
def parseTracks : Nat → List Byte → Option (List (ChanNo × TrackState) × List Byte)
  | 0, bs => some ([], bs)
  | n + 1, c :: st :: bs =>
    match finOf 12 c.toNat, trackOf st.toNat with
    | some c, some st => (parseTracks n bs).map fun r => ((c, st) :: r.1, r.2)
    | _, _ => none
  | _ + 1, _ => none

/-- The state and direction of a state byte. -/
def parseStateByte (b : Byte) : Option (SecState × Direction) :=
  match secStateOf (b.toNat % 4), dirOf (b.toNat / 4 % 4) with
  | some st, some d => some (st, d)
  | _, _ => none

/-- The echo of a SECTION STATE, present by the flags' bit 2. -/
def parseEcho (present : Bool) (rest : List Byte) : Option (Option EchoMsg) :=
  match present, rest with
  | false, [] => some none
  | true, [n, o] => (outcomeOf o.toNat).map fun o => some ⟨n.toNat, o⟩
  | _, _ => none

/-- The contents that a kind code and a payload spell, judged by R172. -/
def parsePayload (kind : Nat) (p : List Byte) : Option Telegram :=
  match kind, p with
  | 1, n :: bs =>
    match parseOpenEntries n.toNat bs with
    | some (es, []) => some (.opening es)
    | _ => none
  | 2, [sec, m, st] =>
    match parseStateByte st with
    | some (st, d) =>
      if m.toNat < 2 then some (.openAck ⟨sec.toNat, m.toNat == 1, st, d⟩) else none
    | none => none
  | 3, sec :: st :: acc :: cls :: fl :: rest =>
    match parseStateByte st, parseEcho (fl.toNat / 4 % 2 == 1) rest with
    | some (st, d), some echo =>
      some (.sectionState
        ⟨sec.toNat, st, d, acc.toNat, if cls.toNat = 0 then none else some cls.toNat,
         fl.toNat % 2 == 1, fl.toNat / 2 % 2 == 1, echo⟩)
    | _, _ => none
  | 4, sv :: sw :: n :: bs =>
    match serviceOf sv.toNat, switchOf sw.toNat, parseEndLines n.toNat bs with
    | some sv, some sw, some (ls, m :: bs) =>
      match parseTracks m.toNat bs with
      | some (ts, []) => some (.endReport ⟨sv, sw, ls, ts⟩)
      | _ => none
    | _, _, _ => none
  | 5, [sec, no, k, cls] =>
    (reqKindOf k.toNat).map fun k => .request ⟨sec.toNat, no.toNat, k, cls.toNat⟩
  | 6, [sec, no, o] => (outcomeOf o.toNat).map fun o => .answer ⟨sec.toNat, no.toNat, o⟩
  | 7, sec :: fl :: g :: gs =>
    if g.toNat = gs.length then
      some (.bell ⟨sec.toNat, fl.toNat % 2 == 1, fl.toNat / 2 % 2 == 1, gs.map (·.toNat)⟩)
    else none
  | 8, n :: ids => if n.toNat = ids.length then some (.failed (ids.map (·.toNat))) else none
  | _, _ => none

/-- The telegram that received characters are, where they pass every check of R83 before those of
the addresses: start byte, length (R172), CRC. -/
def parseTelegram (chars : List Byte) : Option (Header × Telegram) :=
  match chars with
  | start :: len :: dst :: src :: kind :: rest =>
    let payload := rest.take (rest.length - 2)
    let covered := [len, dst, src, kind] ++ payload
    if start = Config.startByte ∧ 2 ≤ rest.length ∧ len.toNat = chars.length ∧
        wordBytes (crc16 covered) = rest.drop (rest.length - 2) then
      match parsePayload kind.toNat payload with
      | some t => if t.fits then some (⟨dst.toNat, src.toNat⟩, t) else none
      | none => none
    else none
  | _ => none

/-! ## Image records (section 11.4) -/

/-- The STATION CONFIGURATION as its record carries it, 0 for a field not set. -/
structure StationCfg where
  address : Addr
  slowPeriod : Nat
  slowDuty : Nat
  fastPeriod : Nat
  fastDuty : Nat
  gsep : Nat
  gend : Nat
  deriving DecidableEq, Repr

/-- The content of an image record, read. -/
inductive StaticContent where
  | station (c : StationCfg)
  | channel (c : ChannelCfg)
  | lever (c : LeverCfg)
  | timer (c : Option TimerCfg)
  | expr (c : Expr)
  | code (c : Option CodeCfg)
  | sub (c : Option SubCfg)
  | sectionEnd (c : EndCfg)
  | pair (c : PairCfg)
  deriving DecidableEq, Repr

/-- An optional item number, carried as 0 where absent. -/
def optNo {n : Nat} (x : Option (Fin n)) : Nat :=
  match x with
  | some i => i.val + 1
  | none => 0

/-- The item number in a byte that may be absent: 0 is absent, beyond the range is an error. -/
def optNoOf (n i : Nat) : Option (Option (Fin n)) :=
  if i = 0 then some none else (finOf n i).map some

def trackNo : Track → Nat
  | .here c => c.val + 1
  | .far i => i.val + 13

def trackNoOf (n : Nat) : Option Track :=
  if n ≤ 12 then (finOf 12 n).map .here else (finOf 16 (n - 12)).map .far

/-- Kind and argument byte of a condition. -/
def Cond.code : Cond → Nat × Nat
  | .leverNormal l => (1, l.val + 1)
  | .leverReverse l => (2, l.val + 1)
  | .trackClear t => (3, trackNo t)
  | .trackOccupied t => (4, trackNo t)
  | .sectionBlocked e => (5, e.val + 1)
  | .sectionOccupied e => (6, e.val + 1)
  | .releaseAvailable e => (7, e.val + 1)
  | .releaseConsumed e => (8, e.val + 1)
  | .timerIdle t => (9, t.val + 1)
  | .switchedIn => (10, 0)
  | .switchedOut => (11, 0)

def Cond.of (kind arg : Nat) : Option Cond :=
  match kind with
  | 1 => (finOf 64 arg).map .leverNormal
  | 2 => (finOf 64 arg).map .leverReverse
  | 3 => (trackNoOf arg).map .trackClear
  | 4 => (trackNoOf arg).map .trackOccupied
  | 5 => (finOf 6 arg).map .sectionBlocked
  | 6 => (finOf 6 arg).map .sectionOccupied
  | 7 => (finOf 6 arg).map .releaseAvailable
  | 8 => (finOf 6 arg).map .releaseConsumed
  | 9 => (finOf 8 arg).map .timerIdle
  | 10 => if arg = 0 then some .switchedIn else none
  | 11 => if arg = 0 then some .switchedOut else none
  | _ => none

def exprKindCode : ExprKind → Nat
  | .reverse => 1
  | .normal => 2
  | .control => 3

def exprKindOf : Nat → Option ExprKind
  | 1 => some .reverse
  | 2 => some .normal
  | 3 => some .control
  | _ => none

def Cond.bytes (c : Cond) : List Byte := [byte c.code.1, byte c.code.2]
def termBytes (t : List Cond) : List Byte := byte t.length :: t.flatMap Cond.bytes

/-- A list carried in a fixed number of places, 0 beyond its count. -/
def places (n : Nat) (xs : List Nat) : List Byte :=
  (xs ++ List.replicate (n - xs.length) 0).map byte

/-- The code of a table meaning; UNRECOGNISED is no table meaning. -/
def CodeCfg.bytes (c : CodeCfg) : List Byte :=
  [byte c.pattern.length] ++ places 5 (c.pattern.map (·.getD 0))
    ++ [byte (meaningCode c.meaning), byte (c.meaning.cls.getD 0)]

/-- The bytes of a record's content (the table of section 11.4). -/
def StaticContent.bytes : StaticContent → List Byte
  | .station c =>
    [byte c.address.val] ++ two c.slowPeriod ++ [byte c.slowDuty] ++ two c.fastPeriod
      ++ [byte c.fastDuty] ++ two c.gsep ++ two c.gend
  | .channel c =>
    [byte c.k, byte c.kd, byte c.kp] ++ two c.kh ++ [byte c.nd, byte c.np] ++ two c.rmin
      ++ two c.rmax ++ two c.rnom ++ [byte (bit c.published)]
  | .lever c => [byte (optNo c.lock), byte (optNo c.control), byte (optNo c.releaseOf),
      byte (optNo c.throughOf)]
  | .timer none => [0, 0, 0]
  | .timer (some c) => [byte (c.trigger.val + 1), byte (trackNo c.approach), byte c.duration]
  | .expr c =>
    [byte (c.lever.val + 1), byte (exprKindCode c.kind), byte c.terms.length]
      ++ c.terms.flatMap termBytes
  | .code none => List.replicate 8 0
  | .code (some c) => c.bytes
  | .sub none => [0, 0]
  | .sub (some c) => [byte c.publisher.val, byte (c.channel.val + 1)]
  | .sectionEnd c =>
    [byte c.section_, byte c.neighbour.val, byte (kindOfSectionCode c.kind), byte (bit c.owner),
     byte (bit c.commutator), byte (optNo c.homeLever), byte c.clearance.length]
      ++ places 4 (c.clearance.map trackNo) ++ [byte c.proving.length]
      ++ places 3 (c.proving.map trackNo)
      ++ [byte (optNo c.releaseLever), byte (optNo c.entryTrack),
          byte (match c.farEntry with
                | some i => i.val + 13
                | none => 0)]
  | .pair c =>
    [byte (c.endA.val + 1), byte (c.endB.val + 1), byte c.levers.length]
      ++ places 4 (c.levers.map (·.val + 1))

/-! ### Reading contents -/

/-- A list of numbers read item by item; none where one is out of its range. -/
def readAll {α : Type} (f : Nat → Option α) : List Nat → Option (List α)
  | [] => some []
  | x :: xs =>
    match f x, readAll f xs with
    | some a, some as => some (a :: as)
    | _, _ => none

/-- The items in places up to a count, the places beyond it 0. -/
def readPlaces {α : Type} (f : Nat → Option α) (count : Nat) (xs : List Nat) : Option (List α) :=
  if count ≤ xs.length ∧ (xs.drop count).all (· == 0) then readAll f (xs.take count) else none

/-- A flag byte, 0 or 1. -/
def flagOf (n : Nat) : Option Bool :=
  match n with
  | 0 => some false
  | 1 => some true
  | _ => none

def readStationCfg : List Byte → Option StationCfg
  | [a, sp1, sp0, sd, fp1, fp0, fd, gs1, gs0, ge1, ge0] =>
    if h : a.toNat < 16 then
      some ⟨⟨a.toNat, h⟩, num2 sp1 sp0, sd.toNat, num2 fp1 fp0, fd.toNat, num2 gs1 gs0,
        num2 ge1 ge0⟩
    else none
  | _ => none

def readChannelCfg : List Byte → Option ChannelCfg
  | [k, kd, kp, kh1, kh0, nd, np, rl1, rl0, rh1, rh0, rn1, rn0, pub] =>
    (flagOf pub.toNat).map fun pub =>
      ⟨k.toNat, kd.toNat, kp.toNat, num2 kh1 kh0, nd.toNat, np.toNat, num2 rl1 rl0, num2 rh1 rh0,
        num2 rn1 rn0, pub⟩
  | _ => none

def readLeverCfg : List Byte → Option LeverCfg
  | [lk, ct, re, th] =>
    match optNoOf 32 lk.toNat, optNoOf 16 ct.toNat, optNoOf 6 re.toNat, optNoOf 2 th.toNat with
    | some lk, some ct, some re, some th => some ⟨lk, ct, re, th⟩
    | _, _, _, _ => none
  | _ => none

/-- A TIMER STATIC as it is read (section 11.4). An unused one whose other bytes are not 0 spells none (DESIGN
CHOICE, log entry 19). -/
def readTimerCfg : List Byte → Option (Option TimerCfg)
  | [tr, ap, du] =>
    if tr.toNat = 0 then
      if ap.toNat = 0 ∧ du.toNat = 0 then some none else none
    else
      match finOf 64 tr.toNat, trackNoOf ap.toNat with
      | some tr, some ap =>
        if 1 ≤ du.toNat ∧ du.toNat ≤ 240 then some (some ⟨tr, ap, du.toNat⟩) else none
      | _, _ => none
  | _ => none

def readConds : Nat → List Byte → Option (List Cond × List Byte)
  | 0, bs => some ([], bs)
  | n + 1, k :: a :: bs =>
    match Cond.of k.toNat a.toNat, readConds n bs with
    | some c, some (cs, bs) => some (c :: cs, bs)
    | _, _ => none
  | _ + 1, _ => none

def readTerms : Nat → List Byte → Option (List (List Cond) × List Byte)
  | 0, bs => some ([], bs)
  | n + 1, c :: bs =>
    if 1 ≤ c.toNat ∧ c.toNat ≤ 6 then
      match readConds c.toNat bs with
      | some (t, bs) => (readTerms n bs).map fun r => (t :: r.1, r.2)
      | none => none
    else none
  | _ + 1, _ => none

/-- An expression: a lever, a kind, 0 to 4 terms of 1 to 6 conditions (R40). -/
def readExpr : List Byte → Option Expr
  | l :: k :: t :: bs =>
    match finOf 64 l.toNat, exprKindOf k.toNat with
    | some l, some k =>
      if t.toNat ≤ 4 then
        match readTerms t.toNat bs with
        | some (ts, []) => some ⟨l, k, ts⟩
        | _ => none
      else none
    | _, _ => none
  | _ => none

/-- A meaning of the code table; an OFFER must carry a class of 1 to 7, the others none (R62). -/
def tableMeaning (code cls : Nat) : Option Meaning :=
  match code, cls with
  | 2, c => if 1 ≤ c ∧ c ≤ 7 then some (.offer c) else none
  | 1, 0 => some .attention
  | 3, 0 => some .entering
  | 4, 0 => some .outOfSection
  | 5, 0 => some .cancel
  | 6, 0 => some .testing
  | 7, 0 => some .other
  | 8, 0 => some .obstruction
  | _, _ => none

/-- A group value of a pattern: 1 to 9, or ANY as 0. -/
def patternValue (n : Nat) : Option (Option Nat) :=
  if n = 0 then some none else if n ≤ 9 then some (some n) else none

/-- A CODE TABLE ENTRY as it is read (section 11.4). An unused one whose other bytes are not 0 spells none (DESIGN
CHOICE, log entry 19). -/
def readCodeCfg : List Byte → Option (Option CodeCfg)
  | [m, g1, g2, g3, g4, g5, me, cl] =>
    if m.toNat = 0 then
      if [g1, g2, g3, g4, g5, me, cl].all (· == 0) then some none else none
    else
      match readPlaces patternValue m.toNat ([g1, g2, g3, g4, g5].map (·.toNat)),
          tableMeaning me.toNat cl.toNat with
      | some p, some me => some (some ⟨p, me⟩)
      | _, _ => none
  | _ => none

/-- A SUBSCRIPTION STATIC as it is read (section 11.4). An unused one whose other bytes are not 0 spells none (DESIGN
CHOICE, log entry 19). -/
def readSubCfg : List Byte → Option (Option SubCfg)
  | [p, c] =>
    if p.toNat = 0 then
      if c.toNat = 0 then some none else none
    else
      match finOf 12 c.toNat with
      | some c => if h : p.toNat < 16 then some (some ⟨⟨p.toNat, h⟩, c⟩) else none
      | none => none
  | _ => none

/-- A remote track number, 13 to 28, or absent. -/
def farTrackOf (n : Nat) : Option (Option SubNo) :=
  if n = 0 then some none else if n < 13 then none else (finOf 16 (n - 12)).map some

def readEndCfg : List Byte → Option EndCfg
  | [sec, nb, kd, ow, cm, hl, cn, c1, c2, c3, c4, pn, p1, p2, p3, rl, et, fe] =>
    match sectionKindOf kd.toNat, flagOf ow.toNat, flagOf cm.toNat, optNoOf 64 hl.toNat,
        readPlaces trackNoOf cn.toNat ([c1, c2, c3, c4].map (·.toNat)),
        readPlaces trackNoOf pn.toNat ([p1, p2, p3].map (·.toNat)) with
    | some kd, some ow, some cm, some hl, some cl, some pr =>
      match optNoOf 64 rl.toNat, optNoOf 12 et.toNat, farTrackOf fe.toNat with
      | some rl, some et, some fe =>
        if h : nb.toNat < 16 then
          some ⟨sec.toNat, ⟨nb.toNat, h⟩, kd, ow, cm, hl, cl, pr, rl, et, fe⟩
        else none
      | _, _, _ => none
    | _, _, _, _, _, _ => none
  | _ => none

def readPairCfg : List Byte → Option PairCfg
  | [a, b, n, l1, l2, l3, l4] =>
    match finOf 6 a.toNat, finOf 6 b.toNat,
        readPlaces (finOf 64) n.toNat ([l1, l2, l3, l4].map (·.toNat)) with
    | some a, some b, some ls => some ⟨a, b, ls⟩
    | _, _, _ => none
  | _ => none

/-- The content of a static record, read by its kind's layout. -/
def readStatic (r : StaticId) (bs : List Byte) : Option StaticContent :=
  match r with
  | .station => (readStationCfg bs).map .station
  | .channel _ => (readChannelCfg bs).map .channel
  | .lever _ => (readLeverCfg bs).map .lever
  | .timer _ => (readTimerCfg bs).map .timer
  | .expr _ => (readExpr bs).map .expr
  | .code _ => (readCodeCfg bs).map .code
  | .sub _ => (readSubCfg bs).map .sub
  | .sectionEnd _ => (readEndCfg bs).map .sectionEnd
  | .pair _ => (readPairCfg bs).map .pair

/-- The content of a static record as the configuration holds it. -/
def Configuration.content (c : Configuration) : StaticId → Option StaticContent
  | .station =>
    some (.station ⟨c.address, c.slowPeriod, c.slowDuty, c.fastPeriod, c.fastDuty, c.gsep, c.gend⟩)
  | .channel n => some (.channel (look c.channels n))
  | .lever l => some (.lever (look c.levers l))
  | .timer t => some (.timer (look c.timers t))
  | .expr x => (c.exprs[x.val]?).map .expr
  | .code k => some (.code (look c.codes k))
  | .sub i => some (.sub (look c.subs i))
  | .sectionEnd e => (look c.ends e).map .sectionEnd
  | .pair p => (look c.pairs p).map .pair

/-- The configuration with one static record written. -/
def Configuration.put (c : Configuration) (r : StaticId) (v : StaticContent) : Configuration :=
  match r, v with
  | .station, .station v =>
    { c with address := v.address, slowPeriod := v.slowPeriod, slowDuty := v.slowDuty,
             fastPeriod := v.fastPeriod, fastDuty := v.fastDuty, gsep := v.gsep, gend := v.gend }
  | .channel n, .channel v => { c with channels := upd c.channels n fun _ => v }
  | .lever l, .lever v => { c with levers := upd c.levers l fun _ => v }
  | .timer t, .timer v => { c with timers := upd c.timers t fun _ => v }
  | .expr x, .expr v =>
    { c with exprs := if x.val < c.exprs.length then c.exprs.set x.val v else c.exprs ++ [v] }
  | .code k, .code v => { c with codes := upd c.codes k fun _ => v }
  | .sub i, .sub v => { c with subs := upd c.subs i fun _ => v }
  | .sectionEnd e, .sectionEnd v => { c with ends := upd c.ends e fun _ => some v }
  | .pair p, .pair v => { c with pairs := upd c.pairs p fun _ => some v }
  | _, _ => c

/-- The conditions that the term counts of an expression's content announce, as its own counts give
its length (R174): the number of bytes of `n` terms that begin here. -/
def termsLength : Nat → List Byte → Nat
  | 0, _ => 0
  | n + 1, c :: bs => 1 + 2 * c.toNat + termsLength n (bs.drop (2 * c.toNat))
  | n + 1, [] => n + 1

/-- The content's length is the one section 11.4 gives for the kind; a kind without a content layout
is left to the judgement of its code (R174). -/
def contentFits (kind : Nat) (content : List Byte) : Bool :=
  match kind with
  | 1 => content.length == 11
  | 3 => content.length == 14
  | 5 => content.length == 4
  | 8 => content.length == 3
  | 10 =>
    match content with
    | _ :: _ :: t :: bs => bs.length == termsLength t.toNat bs
    | _ => false
  | 11 => content.length == 8
  | 19 => content.length == 2
  | 21 => content.length == 18
  | 25 => content.length == 7
  | _ => true

/-- The content's length for a REPAIR RECORD, where a DIGEST ENTRY's content is its digest (R174). -/
def repairFits (kind : Nat) (content : List Byte) : Bool :=
  if kind = 2 then content.length == 2 else contentFits kind content

/-! ## Digests (R173) -/

/-- What a digest or the image digest takes of one record: kind code, index and content. -/
def recordBytes (r : StaticId) (content : List Byte) : List Byte :=
  [byte r.kindCode] ++ two r.index ++ content

/-- The per-record digest. -/
def recordDigest (r : StaticId) (content : List Byte) : Word := crc16 (recordBytes r content)

/-- The section digest: section id, the owner's address, the far end's address, the kind at the
owner (R92, R173). -/
def sectionDigest (own : Addr) (c : EndCfg) : Word :=
  let kind := if c.owner then c.kind
    else match c.kind with
      | .outwardOneWay => .inwardOneWay
      | k => k
  let owner := if c.owner then own else c.neighbour
  let far := if c.owner then c.neighbour else own
  crc16 [byte c.section_, byte owner.val, byte far.val, byte (kindOfSectionCode kind)]

end Sys2Proof.Machine
end

