-- ==== Sys2Proof/Machine/Flags.lean ====
section
/-! DEFINITION. What the records show: known track states (R13, R43, R44), fresh and sound views
(R45, R49), and the lamps of the block instruments (R121). -/

namespace Sys2Proof.Machine

open Sys2Proof

/-! ## Tracks -/

/-- The reported state of a decision state (section 1.4). -/
def Decision.reported : Decision → TrackState
  | .clear => .clear
  | .dropping => .shunted
  | .occupied => .occupied
  | .picking => .occupied
  | .failed => .failed

/-- The state a published channel is carried with: FAILED while either part is poisoned (R14). -/
def State.publishedState (s : State) (c : ChanNo) : TrackState :=
  if s.badChannel c then .failed else (s.channel c).decision.reported

/-- A track's state where it is known: a FAILED or poisoned one is not (R13, R43), nor a remote one
whose publisher is not fresh or is marked as in LOCKDOWN (R44), nor one whose subscription is
poisoned (R48). -/
def State.track (s : State) : Track → Option TrackState
  | .here c =>
    match s.publishedState c with
    | .failed => none
    | st => some st
  | .far i =>
    match look s.cfg.subs i with
    | none => none
    | some c =>
      let r := s.stationRec c.publisher
      if s.badStatic (.sub i) || s.isPoisoned (.sub i) || !r.fresh || r.lockdown then none
      else
        match (s.sub i).state with
        | .failed => none
        | st => some st

/-- The track is known CLEAR. -/
def State.knownClear (s : State) (t : Track) : Bool := s.track t == some .clear
/-- The track is known OCCUPIED. -/
def State.knownOccupied (s : State) (t : Track) : Bool := s.track t == some .occupied

/-! ## Views -/

/-- The view of an end is fresh: the owner's own record always, a mirror by its SECTION STATE
freshness (R45, R87). -/
def State.freshView (s : State) (e : EndNo) (c : EndCfg) : Bool := c.owner || (s.lineEnd e).fresh

/-- The view is sound: fresh, free of owner fault and free of obstruction, no record it needs
poisoned (R49, R123). -/
def State.sound (s : State) (e : EndNo) : Bool :=
  match s.endCfg e with
  | none => false
  | some c =>
    let v := s.view e
    !s.badStatic (.sectionEnd e) && !s.isPoisoned (c.viewRecord e) &&
      if c.owner then
        !v.obstruction && s.service != .restrictive && s.service != .lockdown
      else
        (s.lineEnd e).fresh && !v.ownerFault && !v.obstruction && v.localObs == .clear

/-- The view is stale as R120 gives: a mirror that is not fresh, or at an owner the neighbour's END
REPORT that is not. -/
def State.staleView (s : State) (e : EndNo) (c : EndCfg) : Bool :=
  if c.owner then !(s.stationRec c.neighbour).fresh else !(s.lineEnd e).fresh

/-- A view shows a state in a direction. -/
def View.shows (v : View) (st : SecState) (d : Direction) : Bool := v.state == st && v.dir == d

/-- A view shows CLEAR under an acceptance number, in whichever direction; a number under which it does
not is new to it (R95). -/
def View.clearUnder (v : View) (acc : Nat) : Bool := v.state == .clear && v.acc == acc

/-- A view shows CLEAR in a direction under an acceptance number. -/
def View.showsClear (v : View) (d : Direction) (acc : Nat) : Bool := v.shows .clear d && v.acc == acc

/-! ## Lamps (R121) -/

/-- The end's attend lamp flashes fast for a cause of the chapter Switching Out: the switch mark at
a pair end, or a WAITING demand with a last refusal at its through accepting end (R136). -/
def State.switchFlash (s : State) (e : EndNo) : Bool :=
  (s.switch.mark && (s.pairOf e).isSome) ||
    match s.throughRearOf e with
    | none => false
    | some r =>
      match s.demand r with
      | some d => d.state == .waiting && d.lastRefusal.isSome
      | none => false

/-- The refused mark stands, for a refused move or for a CANCEL not made again (R105, R113). -/
def View.marked (v : View) : Bool := v.refused.isSome || v.cancelRefused

/-- The attend lamp of an end: the first of R121's lines that applies. -/
def State.attend (s : State) (e : EndNo) (c : EndCfg) : Attend :=
  let v := s.view e
  if v.obstruction || (!c.owner && v.localObs != .clear) then .steady
  else if v.marked || (s.bell e).lost || s.staleView e c || s.switchFlash e then .fast
  else if v.pending.isSome || (s.bell e).outstanding.isSome then .slow
  else .off

/-- A flash as configured: each value the default where it is not set, and both while the STATION
CONFIGURATION is poisoned (R139). -/
def State.flashOf (s : State) (period duty : Nat) (default : Nat × Nat) : Flash :=
  if s.badStatic .station then ⟨default.1, default.2⟩
  else ⟨if period = 0 then default.1 else period, if duty = 0 then default.2 else duty⟩

/-- The slow flash (00_scope.md, R139). -/
def State.slowFlash (s : State) : Flash :=
  s.flashOf s.cfg.slowPeriod s.cfg.slowDuty Config.defaultSlow
/-- The fast flash (00_scope.md, R139). -/
def State.fastFlash (s : State) : Flash :=
  s.flashOf s.cfg.fastPeriod s.cfg.fastDuty Config.defaultFast

/-- The flash with which a lamp so lit flashes, if it does. -/
def State.flashFor (s : State) : Attend → Option Flash
  | .slow => some s.slowFlash
  | .fast => some s.fastFlash
  | .off | .steady => none

/-- The lamps of an end as commanded; unlit where no end is configured. -/
def State.lamps (s : State) (e : EndNo) : Lamps :=
  match s.endCfg e with
  | none => Lamps.off
  | some c =>
    ⟨(s.view e).state, c.kind == .twoWay && (s.view e).dir == c.toHere, s.attend e c,
     s.flashFor (s.attend e c)⟩

end Sys2Proof.Machine
end

