-- ==== Sys2Proof/Machine/Locking.lean ====
section
/-! DEFINITION. The locking evaluator (03_the_locking_table.md): conditions, automatic terms, the
two lanes, and the lock and control outputs that the frame unit commands from them (R25, R30, R31). -/

namespace Sys2Proof.Machine

open Sys2Proof

/-! ## Conditions (section 3.2) -/

/-- A section condition reads a fresh view whose record is sound of check word (R45, R48). -/
def State.viewShows (s : State) (e : EndNo) (st : SecState) : Bool :=
  match s.endCfg e with
  | none => false
  | some c => (s.view e).state == st && s.freshView e c && !s.isPoisoned (c.viewRecord e)

/-- A release condition reads the release record alone (R46). -/
def State.releaseIs (s : State) (e : EndNo) (st : RelState) : Bool :=
  (s.release e).state == st && !s.isPoisoned (.release e)

/-- A condition is met (R42 to R48). -/
def State.met (s : State) : Cond → Bool
  | .leverNormal l => (s.lever l).position == .normal && !s.badLever l
  | .leverReverse l => (s.lever l).position == .reverse && !s.badLever l
  | .trackClear t => s.knownClear t
  | .trackOccupied t => s.knownOccupied t
  | .sectionBlocked e => s.viewShows e .blocked
  | .sectionOccupied e => s.viewShows e .occupied
  | .releaseAvailable e => s.releaseIs e .available
  | .releaseConsumed e => s.releaseIs e .consumed
  | .timerIdle t =>
    (look s.timers t).isNone && !s.badStatic (.timer t) && !s.isPoisoned (.timer t)
  | .switchedIn => !s.switchedOut && !s.isPoisoned .switch
  | .switchedOut => s.switchedOut && !s.isPoisoned .switch

/-- The automatic term an expression carries: a release lever's control (R50), a through lever's
normal expression (R51). -/
def State.autoTerm (s : State) (x : Expr) : Bool :=
  match x.kind with
  | .reverse => true
  | .control =>
    match (s.leverCfg x.lever).releaseOf with
    | some e => s.releaseIs e .consumed && s.sound e
    | none => true
  | .normal =>
    match (s.leverCfg x.lever).throughOf with
    | some _ => s.met .switchedIn
    | none => true

/-- The configured terms hold: none at all, or one whose every condition is met (section 3.1). -/
def State.termsHold (s : State) (ts : List (List Cond)) : Bool :=
  ts.isEmpty || ts.any fun t => t.all s.met

/-- An expression holds, its own record not poisoned, with its automatic term (R41, R48). -/
def State.judge (s : State) (x : ExprNo) : Bool :=
  match s.cfg.exprs[x.val]? with
  | none => false
  | some e => !s.badStatic (.expr x) && s.termsHold e.terms && s.autoTerm e

/-! ## The lanes (R52, R53) -/

/-- One judgement of an expression by both lanes, with the disagreement start; the mark is cleared
when the lanes agree again. -/
def Lanes.judged (l : Lanes) (a b : Bool) (now : Nat) : Lanes :=
  if a == b then ⟨a, b, none, false⟩ else ⟨a, b, some (l.since.getD now), l.laneFailed⟩

/-- One expression judged by both lanes, each with its own malfunction where it has one; a number that
the table does not hold has no lanes to disagree. -/
def State.judgedLanes (s : State) (x : ExprNo) : Lanes :=
  if s.cfg.exprs.length ≤ x.val then Lanes.fresh
  else
    (look s.lanes x).judged (s.judge x != s.laneErrA.getLsbD x.val)
      (s.judge x != s.laneErrB.getLsbD x.val) s.clock

/-- Records marked as poisoned, for a judgement that finds them damaged (R48). -/
def State.asPoisoned (s : State) (rs : List RecordId) : State :=
  s.updIntegrity fun g => { g with poisoned := g.poisoned ++ rs }

/-- The evaluator judges: after LOAD END from the first frame scan on (R54). -/
def State.judgesNow (s : State) : Bool := s.judging && s.judged

/-- Both lanes judge every expression (R52), the records found damaged by this event's reads judged as
poisoned (R48). An expression that no change of the event touches is given the results it has. -/
def State.judgeLanes (s : State) (found : List RecordId) : State :=
  if s.judgesNow then { s with lanes := build 80 (s.asPoisoned found).judgedLanes } else s

/-- The combined result the frame unit receives: both lanes hold the expression (R52). -/
def State.combined (s : State) (l : LeverNo) (k : ExprKind) : Bool :=
  match s.cfg.exprOf l k with
  | none => false
  | some x => (look s.lanes x).laneA && (look s.lanes x).laneB

/-! ## Output commands -/

/-- The command of the lock output of a lever (R25). In PROVING it is judged for a through lever as for
any other: R51 and R134 say that its lock stays off after a forced switch-in until the station is next
IN SERVICE, R25, R38 and R144 that a lever at REVERSE is freed in PROVING so that it can be brought to
NORMAL, without which the station would never be IN SERVICE again (DESIGN CHOICE, log entry 30). -/
def State.lockCommand (s : State) (l : LeverNo) : Bool :=
  let v := s.lever l
  if !s.live || s.badLever l then false
  else
    match s.service, v.position with
    | .inService, .normal =>
      !(look s.collars l).effective && !s.isPoisoned .collars && s.combined l .reverse
    | .inService, .reverse => s.combined l .normal
    | .inService, .mid => (v.stroke.map (·.hold)).getD false
    | .proving, .reverse => s.combined l .normal
    | .proving, .mid =>
      match v.stroke with
      | some k => k.hold
      | none => s.combined l .normal
    | _, _ => false

/-- The condition under which a control output is commanded energized, the latch apart (R30). -/
def State.controlAllowed (s : State) (l : LeverNo) : Bool :=
  s.live && s.service == .inService && !s.badLever l && (s.lever l).position == .reverse
    && s.combined l .control

/-- The command of the control output of a lever (R30). -/
def State.controlCommand (s : State) (l : LeverNo) : Bool := s.controlAllowed l && !(s.lever l).latch

/-- The replacement latches that drops set: a control commanded energized that is no longer allowed,
its lever still at REVERSE (R31). -/
def State.latchDrops (s : State) : State :=
  { s with levers := build 64 fun l =>
      let v := s.lever l
      match (s.leverCfg l).controlOutput with
      | some n =>
        if (s.output n).command && !s.controlCommand l && v.position == .reverse then
          { v with latch := true }
        else v
      | none => v }

/-- The command of an output: of the lever that names it, off where none does (R25, R30, R35). -/
def State.commandOf (s : State) (n : OutputNo) : Bool :=
  match s.cfg.leverOf n with
  | none => false
  | some l => if n.val < 32 then s.lockCommand l else s.controlCommand l

/-- Every output command anew from the records, the latches of dropped controls set first, so that a
control dropped by an event is not given again in it (R25, R30, R31). -/
def State.commandOutputs (s : State) : State :=
  let s := s.latchDrops
  { s with outputs := build 48 fun n => { s.output n with command := s.commandOf n } }

/-- The evaluator's answer to an event: both lanes judge, and the outputs follow (R52). -/
def State.evaluate (s : State) (found : List RecordId) : State := (s.judgeLanes found).commandOutputs

/-- Every result held as not holding, with no disagreement (R54, on RESTART and LOCKDOWN). -/
def State.clearLanes (s : State) : State := { s with lanes := Vector.replicate 80 Lanes.fresh }

/-- Every stroke hold cleared (R27). -/
def State.clearHolds (s : State) : State :=
  { s with levers := s.levers.map fun v =>
      { v with stroke := v.stroke.map fun k => { k with hold := false } } }

end Sys2Proof.Machine
end

