-- ==== Sys2Proof/Machine/LineOps.lean ====
section
/-! DEFINITION. The transmit queue and what is offered to it (05_the_block_line.md, sections 5.3 and
5.5): building telegrams, coalescing and single offers, refusals, owed telegrams. -/

namespace Sys2Proof.Machine

open Sys2Proof

/-- The number of a section end as a notice subject: E1 is 1. -/
def endSubject (e : EndNo) : Nat := e.val + 1

/-! ## The queue (R80, R81) -/

/-- SECTION STATE and END REPORT are the coalescing kinds (section 5.3). -/
def Telegram.coalesces : Telegram → Bool
  | .sectionState _ | .endReport _ => true
  | _ => false

/-- A coalescing telegram is the newer of one of its kind for the same section end. -/
def TxEntry.supersedes (new old : TxEntry) : Bool :=
  new.body.coalesces && old.body.coalesces && new.endNo == old.endNo

/-- The number of single telegrams queued. -/
def LineUnit.singles (u : LineUnit) : Nat := (u.queue.filter fun q => !q.body.coalesces).length

/-- A coalescing telegram offered: it replaces an older one in its place, else joins at the tail; a
head replaced while it is being sent is marked, and is sent again (R79, R81). -/
def LineUnit.offerCoalescing (u : LineUnit) (t : TxEntry) : LineUnit :=
  if u.queue.any t.supersedes then
    { u with
      queue := u.queue.map fun q => if t.supersedes q then t else q
      sending := u.sending.map fun x =>
        if t.supersedes x.entry then { x with replaced := true } else x }
  else { u with queue := u.queue ++ [t] }

/-- A single telegram is taken while fewer than nine are queued (R80). -/
def LineUnit.hasRoom (u : LineUnit) : Bool := u.singles < Config.singlePlaces

/-- The STATION CONFIGURATION is poisoned: no telegram is built or taken (R139). -/
def State.mute (s : State) : Bool := s.badStatic .station

/-- A single telegram offered now would be taken (R75, R80, R139). -/
def State.takesSingle (s : State) : Bool := s.working && !s.mute && s.line.hasRoom

/-- A single telegram that names a section end can be built and would be taken (R80, R172). -/
def State.takesAt (s : State) (e : EndNo) : Bool := s.takesSingle && !s.badStatic (.sectionEnd e)

/-- A single telegram joins the queue at its tail. -/
def State.enqueue (s : State) (t : TxEntry) : State :=
  s.updLine fun u => { u with queue := u.queue ++ [t] }

/-! ## SECTION STATE and END REPORT (R85) -/

/-- The fields a SECTION STATE of an owned end carries, the answer echo apart. -/
def State.sectionFields (s : State) (e : EndNo) (c : EndCfg) (echo : Option EchoMsg) : StateMsg :=
  let v := s.view e
  ⟨c.section_, v.state, v.dir, v.acc, v.cls, v.obstruction, s.service == .restrictive, echo⟩

/-- The answer echo of a SECTION STATE built now: within 4 s of the answer (R85). -/
def State.echoNow (s : State) (e : EndNo) : Option EchoMsg :=
  match (s.lineEnd e).echo with
  | some x => if s.clock < x.answeredAt + Config.requestTimeout then some x.msg else none
  | none => none

/-- The SECTION STATE of an owned end as it is built now. -/
def State.sectionStateOf (s : State) (e : EndNo) (c : EndCfg) : TxEntry :=
  ⟨c.neighbour.val, .sectionState (s.sectionFields e c (s.echoNow e)), some e⟩

/-- The line of an END REPORT for one configured end. -/
def State.endLine (s : State) (e : EndNo) (c : EndCfg) : EndLine where
  section_ := c.section_
  commutator := if c.commutator then some (s.comm e).pos else none
  release := (s.release e).state
  releaseNo := (s.release e).acc
  proofComplete := ((s.view e).proof.map (·.complete)).getD false

/-- The contents of an END REPORT as they stand (R14, R85). -/
def State.report (s : State) : ReportMsg where
  service := s.service
  switch := s.switch.state
  ends := allEnds.filterMap fun e => (s.endCfg e).map fun c => s.endLine e c
  tracks := (allChannels.filter fun c => (s.channelCfg c).published).map fun c =>
    (c, s.publishedState c)

/-- An occasion for a SECTION STATE of an owned end, the records it is built from already verified: built and
offered unless a static record it needs is poisoned; the refresh timer restarts either way (R85). -/
def State.offerSectionState (s : State) (e : EndNo) : State :=
  match s.endCfg e with
  | none => s
  | some c =>
    if c.owner && s.working then
      State.updLineEnd
        (if s.mute || s.badStatic (.sectionEnd e) then s
          else s.updLine fun u => u.offerCoalescing (s.sectionStateOf e c))
        e fun x => { x with offeredAt := s.clock }
    else s

/-- The static records an END REPORT, or an OPEN, needs are sound (R85, R172). -/
def State.reportSound (s : State) : Bool :=
  !s.mute && allEnds.all fun e => (s.endCfg e).isNone || !s.badStatic (.sectionEnd e)

/-- An occasion for an END REPORT, in the same way. -/
def State.offerEndReport (s : State) : State :=
  if s.working then
    State.updLine
      (if s.reportSound then s.updLine fun u => u.offerCoalescing ⟨0, .endReport s.report, none⟩
        else s)
      fun u => { u with reportAt := s.clock }
  else s

/-- The ends this station owns. -/
def State.ownedEnds (s : State) : List EndNo :=
  allEnds.filter fun e =>
    match s.endCfg e with
    | some c => c.owner
    | none => false

/-- The SECTION STATE of every owned section is offered, in order of section end. -/
def State.offerAllStates (s : State) : State := s.each s.ownedEnds fun s e => s.offerSectionState e

/-! ## The records that telegrams are built from (R137, R140) -/

/-- The records read to build any telegram and to place it. -/
def placeReads : List RecordId := [.fixed .station, .queue]

/-- The records a SECTION STATE of an end is built from. -/
def State.stateReads (s : State) (e : EndNo) : List RecordId :=
  match s.endCfg e with
  | some c => placeReads ++ [.fixed (.sectionEnd e), c.viewRecord e]
  | none => []

/-- The static records of the configured section ends. -/
def State.endStatics (s : State) : List RecordId :=
  (allEnds.filter fun e => (s.endCfg e).isSome).map fun e => .fixed (.sectionEnd e)

/-- The records an END REPORT is built from: the ends with their releases and proofs, the switch
record, and both parts of every published channel (R14). -/
def State.reportReads (s : State) : List RecordId :=
  placeReads ++ s.endStatics ++ [.switch]
    ++ allEnds.flatMap (fun e =>
      match s.endCfg e with
      | some c => [.release e, c.viewRecord e]
      | none => [])
    ++ (allChannels.filter fun c => (s.channelCfg c).published).flatMap fun c =>
      [.fixed (.channel c), .channel c]

/-! ## Single telegrams (R82, R86) -/

/-- The moment an owed telegram refused or discarded now is offered again (R86). -/
def State.owedAt (s : State) (digestsMatch : Bool) : Owed :=
  ⟨some (s.clock + Config.refreshPeriod), digestsMatch⟩

/-- The OPEN telegram as it is built now (R116). -/
def State.openTelegram (s : State) : Telegram :=
  .opening <| allEnds.filterMap fun e =>
    (s.endCfg e).map fun c => ⟨c.section_, c.owner, sectionDigest s.cfg.address c⟩

/-- The OPEN ACK for a section end as it is built now: whether the digests match at the opener's
last OPEN, and the view's state and direction (R116). -/
def State.ackTelegram (s : State) (e : EndNo) (c : EndCfg) (digestsMatch : Bool) : TxEntry :=
  ⟨c.neighbour.val, .openAck ⟨c.section_, digestsMatch, (s.view e).state, (s.view e).dir⟩, some e⟩

/-- The queue emptied and a transmission cut off; the line is then idle after its gap. -/
def State.cutLine (s : State) : State :=
  s.updLine fun u =>
    { u with
      queue := [], attempt := 0, sending := none
      idleAt := if u.sending.isSome then s.clock + Config.idleGap else u.idleAt }

/-- The records that FAILED is built from are verified; in LOCKDOWN what is found damaged is poisoned
and sets the CHECK WORD flag of the report (R137, R148). -/
def State.verifyFailed (s : State) : State :=
  let hits := s.integrity.damaged.filter (.fixed .station :: s.endStatics).contains
  if hits.isEmpty then s
  else s.updIntegrity fun g =>
    { g with
      damaged := g.damaged.filter fun r => !hits.contains r
      poisoned := g.poisoned ++ hits
      report := g.report.map fun r => { r with multiCheckWord := true } }

/-- The FAILED telegram of the entry to LOCKDOWN, alone in the queue (R86), save where no address or
section can be named (R139, R148); every owed mark is cleared. R86 keeps it back for the STATION CONFIGURATION's
poison alone, R172 for that of any record carried: it is sent with the section ids of poisoned SECTION END STATIC
records too (DESIGN CHOICE, log entry 43). -/
def State.sendFailed (s : State) : State :=
  let s := s.verifyFailed
  let t := s.cutLine.updLine fun u =>
    { u with owedOpen := none, ends := u.ends.map fun x => { x with owedAck := none } }
  if s.hasConfig && !s.mute then
    t.enqueue ⟨0, .failed (allEnds.filterMap fun e => (s.endCfg e).map (·.section_)), none⟩
  else t

end Sys2Proof.Machine
end

