-- ==== Sys2Proof/Machine/SectionOps.lean ====
section
/-! DEFINITION. The section unit's shared operations (06_sections_and_block_instruments.md and
07_switching_out.md): changes of a view with their consequences and entries, the settlement of requests,
release records, through demands, obstruction and peer restarts: all that builds no telegram. -/

namespace Sys2Proof.Machine

open Sys2Proof

/-- The reason of the first check that fails, if any. -/
def firstFailing : List (Bool × Reason) → Option Reason
  | [] => none
  | (ok, r) :: cs => if ok then firstFailing cs else some r

/-- A lever is at NORMAL and its record, in either part, is not poisoned. -/
def State.atNormal (s : State) (l : LeverNo) : Bool := s.met (.leverNormal l)
/-- A lever is at REVERSE and its record, in either part, is not poisoned. -/
def State.atReverse (s : State) (l : LeverNo) : Bool := s.met (.leverReverse l)

/-! ## Register entries of a view (R94, R154) -/

/-- The entry that a change of a view's state registers (the table of R94 and the paragraph under
it). An acceptance number that the view did not show before is taken to be one that differs from the
number field as it stood in whatever state, so that a view going from CLOSED under 0 to CLEAR under 0
registers no ACCEPTED, though R95 calls the number new there (DESIGN CHOICE, log entry 31). -/
def changeKind (old new : View) : Option EventKind :=
  match old.state, new.state with
  | .closed, .closed => none
  | _, .closed => some .closed
  | .blocked, .clear => some .accepted
  | .clear, .occupied => some .occupied
  | .occupied, .blocked => some .arrived
  | .clear, .blocked => some .cancelled
  | .closed, .blocked => some .opened
  | .blocked, .blocked => none
  | _, .clear => if old.acc = new.acc then none else some .accepted
  | .occupied, .occupied => none
  | _, .occupied => some .occupied

/-- The entry of a view's change with the fields R154 gives its kind, from the view it is given: the changed one
for a change. Where a SECTION STATE changes state and number together, the number of an ARRIVED or CANCELLED is
so the new one: "the one the view held at the change" does not say which (DESIGN CHOICE, log entry 58). -/
def viewEntry (c : EndCfg) (v : View) (kind : EventKind) (auto : Bool) : EventInfo :=
  let base := { EventInfo.ofSection kind c.section_ with auto := auto }
  match kind with
  | .accepted | .occupied => { base with cls := v.cls, acc := some v.acc }
  | .arrived | .cancelled | .cancelledByRestart | .opened | .arrivalRelease =>
    { base with acc := some v.acc }
  | _ => base

/-- The obstruction of a view came to be set: the flag, the local flag or the mirror's. -/
def obstructionSet (old new : View) : Bool :=
  (!old.obstruction && new.obstruction) || (old.localObs == .clear && new.localObs != .clear)
/-- The obstruction of a view came to be cleared. -/
def obstructionCleared (old new : View) : Bool :=
  (old.obstruction && !new.obstruction) || (old.localObs != .clear && new.localObs == .clear)

/-- The entry that a view's change makes for its state, with the fields of the changed view (log entry 58):
OBSTRUCTION CLEARED, where an obstruction is cleared in the same event, in place of any entry for a change of
state (R94). -/
def State.registerChange (s : State) (c : EndCfg) (old new : View) (auto : Bool) : State :=
  if obstructionCleared old new then s.register (EventInfo.ofSection .obstructionCleared c.section_)
  else
    match changeKind old new with
    | some k => s.register (viewEntry c new k auto)
    | none => s

/-- The changes of a view are registered (R94); an OBSTRUCTION SET stands beside the other entry, and after
it (DESIGN CHOICE, log entry 8). -/
def State.registerView (s : State) (c : EndCfg) (old new : View) (auto : Bool) : State :=
  let s := s.registerChange c old new auto
  if obstructionSet old new then s.register (EventInfo.ofSection .obstructionSet c.section_) else s

/-- A REFUSED entry (R101, R105, R129, R132). -/
def State.registerRefused (s : State) (c : EndCfg) (r : Reason) (auto : Bool) : State :=
  s.register { EventInfo.ofSection .refused c.section_ with reason := some r, auto := auto }

/-! ## Changing a view -/

/-- A new arrival proof (R108). -/
def State.newProof (s : State) (c : EndCfg) : Proof where
  p := match c.proving with
    | t :: _ => if s.knownOccupied t then 1 else 0
    | [] => 0
  complete := false
  waitUntil := none
  auto := false
  refusedSeen := false
  waiting := false
  retryAt := none

/-- The proof of a view as it is put: created on the entry to OCCUPIED toward this end, dropped when
the view is not so (R108). -/
def State.proofFor (s : State) (c : EndCfg) (old new : View) : Option Proof :=
  if new.shows .occupied c.toHere then
    if old.shows .occupied c.toHere then new.proof else some (s.newProof c)
  else none

/-- The view comes to stand BLOCKED or CLOSED from another state. -/
def settles (old new : View) : Bool :=
  new.state != old.state && (new.state == .blocked || new.state == .closed)

/-- The mark of a refused move as a change of the view leaves it: one to BLOCKED is cleared when the
view becomes BLOCKED or CLOSED (R105). -/
def markFor (old new : View) : Option RefusedMark :=
  if new.refused == some .blockedMove && settles old new then none else new.refused

/-- The fields of a view are put in place of the old ones, with the marks and the gesture that a change
of state ends (R105, R113, R117), and the bell unit's offers (R65, R67). The proof is left. An owned record
that a RESUME to PROVING makes CLOSED ends its offers so, where the table after R73 has them kept on RESUME
(DESIGN CHOICE, log entry 55). -/
def State.putFields (s : State) (e : EndNo) (c : EndCfg) (new : View) : State :=
  let old := s.view e
  let closes := new.state == .closed && old.state != .closed
  let clears := new.shows .clear c.away && !old.shows .clear c.away
  let s' := s.updView e fun _ =>
    { new with
      refused := markFor old new
      gesture := new.gesture && new.state == .closed
      autoCancel := new.autoCancel && new.state == .clear
      cancelRefused := new.cancelRefused && new.state == .clear
      cancelDue := new.cancelDue && new.state == .clear
      cancelRetry := if new.state == .clear then new.cancelRetry else none }
  s'.updBell e fun b =>
    { b with
      offer := if closes then none else b.offer
      outstanding := if closes || clears then none else b.outstanding }

/-- The arrival proof is created or dropped as the view has changed from `old` (R108). -/
def State.judgeProof (s : State) (e : EndNo) (c : EndCfg) (old : View) : State :=
  s.updView e fun v => { v with proof := s.proofFor c old v }

/-- A view is put in place of the old one, with everything that follows from its change. -/
def State.putView (s : State) (e : EndNo) (c : EndCfg) (new : View) : State :=
  (s.putFields e c new).judgeProof e c (s.view e)

/-- A section record or mirror changes, and the change is registered. -/
def State.changeView (s : State) (e : EndNo) (c : EndCfg) (new : View) (auto : Bool) : State :=
  (s.putView e c new).registerView c (s.view e) new auto

/-- A view BLOCKED, its direction and class cleared (R93). -/
def View.toBlocked (v : View) : View := { v with state := .blocked, dir := .none, cls := none }
/-- A view CLOSED, its direction and class cleared. -/
def View.toClosed (v : View) : View := { v with state := .closed, dir := .none, cls := none }
/-- A view OCCUPIED, its direction and class kept (R106). -/
def View.toOccupied (v : View) : View := { v with state := .occupied }
/-- A section record CLEAR under the next acceptance number (R102, R104). -/
def View.toClear (v : View) (d : Direction) (cls : Nat) : View :=
  { v with state := .clear, dir := d, cls := some cls, acc := (v.acc + 1) % 256 }

/-! ## Requests (R100, R105) -/

/-- The move a request was made for. -/
def ReqKind.moveTo : ReqKind → CommPos
  | .accept => .clear
  | .occupy => .occupied
  | .arrived | .cancel => .blocked

/-- A move of the commutator is refused: registered, with the refused mark of R105. The condition of
the latest refusal that sets the mark governs its clearing: the rule does not say which does while an
earlier one stands (DESIGN CHOICE, log entry 32). -/
def State.refuseMove (s : State) (e : EndNo) (c : EndCfg) (dest : CommPos) (r : Reason) : State :=
  (s.registerRefused c r false).updView e fun v =>
    match dest with
    | .blocked => { v with refused := some .blockedMove }
    | _ => if (s.comm e).pos == .blocked then v else { v with refused := some .awayMove }

/-! ## Release records (section 6.4) -/

/-- A release record is set; leaving CONSUMED ends the end's demand (R128). -/
def State.setRelease (s : State) (e : EndNo) (r : Release) : State :=
  s.updEnd e fun d =>
    { d with release := r, demand := if r.state == .consumed then d.demand else none }

/-- The release of an end as its view leaves it (R98): an AVAILABLE one needs the view sound and CLEAR toward
the neighbour under its number, in IN SERVICE; a CONSUMED one the view CLEAR under its number. -/
def State.releaseStands (s : State) (e : EndNo) (c : EndCfg) : Bool :=
  let r := s.release e
  let v := s.view e
  match r.state with
  | .none => true
  | .available => s.sound e && v.showsClear c.away r.acc && s.service == .inService
  | .consumed => v.clearUnder r.acc

/-- A release record that its view no longer upholds returns to NONE (R98). -/
def State.followRelease (s : State) (e : EndNo) : State :=
  match s.endCfg e with
  | none => s
  | some c => if s.releaseStands e c then s else s.setRelease e Release.none

/-- The replacement latches of a pair's through levers are cleared on a consumption while switched
out (R32). -/
def State.clearPairLatches (s : State) (e : EndNo) : State :=
  match s.pairOf e with
  | none => s
  | some p =>
    if s.switchedOut then
      match s.pairCfg p with
      | some c => s.each c.levers fun s l =>
          if (s.leverCfg l).control.isSome then s.updLever l fun v => { v with latch := false } else s
      | none => s
    else s

/-- A release is consumed (R97, R127): the frame unit is handed the consumption (R32). -/
def State.consume (s : State) (e : EndNo) (acc : Nat) : State :=
  (s.setRelease e ⟨.consumed, acc, none⟩).clearPairLatches e

/-! ## Acceptance (R102, R103) -/

/-- Every clearance track of an end is known CLEAR. -/
def State.clearanceKnown (s : State) (c : EndCfg) : Bool := c.clearance.all s.knownClear

/-- The home lever of an end is NORMAL. -/
def State.homeNormal (s : State) (c : EndCfg) : Bool := (c.homeLever.map s.atNormal).getD false

/-- The checks of an acceptance that R102 and R103 share; `home` says that the home lever is one of
them, which an auto-acceptance leaves out (R129). -/
def State.commonChecks (s : State) (e : EndNo) (c : EndCfg) (home : Bool) : List (Bool × Reason) :=
  [((s.view e).pending.isNone, .requestPending), ((s.bell e).offer.isSome, .noOffer),
   (s.clearanceKnown c, .clearance), (!home || s.homeNormal c, .homeLever)]

/-- The checks of R102, in order. -/
def State.ownerChecks (s : State) (e : EndNo) (c : EndCfg) (home : Bool) : Option Reason :=
  let v := s.view e
  let r := s.stationRec c.neighbour
  firstFailing <|
    [(v.state == .blocked, .notBlocked), (!v.obstruction, .obstruction)]
      ++ s.commonChecks e c home
      ++ [(r.fresh && r.service == some .inService, .farSilent),
          ((v.farStatus.map (·.release)) == some .none, .releaseHeld)]

/-- The checks of R103, in order. -/
def State.farChecks (s : State) (e : EndNo) (c : EndCfg) (home : Bool) : Option Reason :=
  let v := s.view e
  firstFailing <|
    [((s.lineEnd e).fresh, .farSilent), (v.state == .blocked, .notBlocked),
     (!v.obstruction && v.localObs == .clear, .obstruction)]
      ++ s.commonChecks e c home

/-- The class of the offer record as it stands. -/
def State.offerClass (s : State) (e : EndNo) : Nat := ((s.bell e).offer.map (·.cls)).getD 0

/-- The bell unit is handed the consumption of the offer record. -/
def State.consumeOffer (s : State) (e : EndNo) : State := s.updBell e fun b => { b with offer := none }

/-- An acceptance is taken at the owner (R102). -/
def State.takeAcceptance (s : State) (e : EndNo) (c : EndCfg) : State :=
  (s.changeView e c ((s.view e).toClear .inward (s.offerClass e)) false).consumeOffer e

/-! ## Through demands and automatic acceptance (R128, R129) -/

def State.updDemand (s : State) (e : EndNo) (f : Demand → Demand) : State :=
  s.updEnd e fun d => { d with demand := d.demand.map f }

/-- An auto-acceptance is refused: the retry, and a REFUSED entry where the reason is another than
the last (R129). An ACCEPT settled after its demand has ended registers nothing, and one settled while
another demand is WAITING at the end is taken as that demand's: the rule speaks of the demand it left
WAITING alone (DESIGN CHOICE, log entry 50). -/
def State.demandRefused (s : State) (rear acc : EndNo) (r : Reason) : State :=
  match s.demand rear with
  | none => s
  | some d =>
    if d.state != .waiting then s
    else
      let s' := s.updDemand rear fun d =>
        { d with retryAt := some (s.clock + Config.refreshPeriod), lastRefusal := some r }
      match s.endCfg acc with
      | some c => if d.lastRefusal == some r then s' else s'.registerRefused c r true
      | none => s'

/-- A demand is met by an acceptance under a number (R129, R130). -/
def State.demandAccepted (s : State) (rear : EndNo) (n : Nat) : State :=
  s.updDemand rear fun d =>
    { d with state := .accepted, partnerNo := n, lastRefusal := none, retryAt := none }

/-- A demand as the view of its through accepting end leaves it (R128). A view that goes at once from CLEAR under the
demand's number to OCCUPIED under another, or toward the neighbour, returns it to WAITING (DESIGN CHOICE, log entry
69). -/
def State.followDemand (s : State) (rear : EndNo) : State :=
  match s.demand rear, s.throughAccepting rear with
  | some d, some a =>
    match d.state, s.endCfg a with
    | .accepted, some c =>
      let v := s.view a
      if v.showsClear c.toHere d.partnerNo then s
      else if v.shows .occupied c.toHere && v.acc == d.partnerNo then
        s.updDemand rear fun d => { d with state := .passing }
      else s.updDemand rear fun d =>
        { d with state := .waiting, partnerNo := 0
                 retryAt := some (s.clock + Config.refreshPeriod) }
    | _, _ => s
  | _, _ => s

/-- Releases and demands as the views now leave them (R98, R128). -/
def State.followViews (s : State) : State :=
  (s.each allEnds fun s e => s.followRelease e).each allEnds fun s e => s.followDemand e

/-! ## Arrival (R108, R110, R132) -/

def State.updProof (s : State) (e : EndNo) (f : Proof → Proof) : State :=
  s.updView e fun v => { v with proof := v.proof.map f }

/-- The part itself gives out arrivals on this end: switched out, a through accepting end (R132). -/
def State.autoArrives (s : State) (e : EndNo) : Bool :=
  s.switchedOut && (s.throughRearOf e).isSome

/-- A proof after the refusal of an automatic arrival; one that it was not made for is left (R132). -/
def Proof.arrivalRefused (p : Proof) (again : Bool) (retry : Nat) : Proof :=
  if p.auto then
    { p with refusedSeen := true, waiting := again, retryAt := if again then some retry else none }
  else p

/-- An automatic arrival is refused: registered on the first occurrence for its proof, and made again 2 s
later on the same conditions (R132). `seen` says that a refusal has been registered for the proof it was
made for, which may be gone by now. A second refusal for another reason is no first occurrence, as the rule
names the proof alone (DESIGN CHOICE, log entry 48). -/
def State.autoArrivalRefused (s : State) (e : EndNo) (c : EndCfg) (seen : Bool) (r : Reason) : State :=
  (if seen then s else s.registerRefused c r true).updProof e fun p =>
    p.arrivalRefused (s.autoArrives e) (s.clock + Config.refreshPeriod)

/-! ## Settlement (R100, R105) -/

/-- A refusal or lapse of a request, by what made it (R105, R113, R129, R132). A CANCEL under the
auto-cancel mark registers nothing: it is no move, and R154 lists no entry for it. -/
def State.requestRefused (s : State) (e : EndNo) (c : EndCfg) (p : Request) (r : Reason) : State :=
  match p.origin with
  | .commutator => s.refuseMove e c p.kind.moveTo r
  | .demand rear => s.demandRefused rear e r
  | .autoArrival seen => s.autoArrivalRefused e c seen r
  | .autoCancel =>
    s.updView e fun v =>
      if r == .lineBusy || r == .lapsed then
        { v with cancelRetry :=
            if v.autoCancel then some (s.clock + Config.refreshPeriod) else none }
      else { v with cancelRefused := v.autoCancel }

/-- The end's pending request is settled, TAKEN or for a reason refused. An owner's CANCEL taken sets
a record still CLEAR to BLOCKED (R111). What waited for the settlement is attempted when the event
closes. -/
def State.settle (s : State) (e : EndNo) (c : EndCfg) (o : Outcome) : State :=
  match (s.view e).pending with
  | none => s
  | some p =>
    let s := s.updView e fun v => { v with pending := none }
    match o with
    | .refused r => s.requestRefused e c p r
    | .taken =>
      if c.owner && p.kind == ReqKind.cancel && (s.view e).state == SecState.clear then
        s.changeView e c (s.view e).toBlocked false
      else s

/-- The pending request of an end lapses (R100). -/
def State.lapse (s : State) (e : EndNo) : State :=
  match s.endCfg e with
  | none => s
  | some c => s.settle e c (.refused .lapsed)

/-- A telegram of the queue was lost: the REQUEST it carried, if still pending under its number,
lapses at once, refused LINE BUSY (R78, R80). -/
def State.requestLost (s : State) (t : TxEntry) : State :=
  match t.body, t.endNo with
  | .request m, some e =>
    match s.endCfg e, (s.view e).pending with
    | some c, some p => if p.number == m.number then s.settle e c (.refused .lineBusy) else s
    | _, _ => s
  | _, _ => s

/-! ## Obstruction (R114, R115) -/

/-- An obstruction is handed to the section unit: the owner's flag or the far end's local flag. -/
def State.obstruct (s : State) (e : EndNo) : State :=
  match s.endCfg e with
  | none => s
  | some c =>
    let v := s.view e
    if c.owner then
      if v.obstruction then s else s.changeView e c { v with obstruction := true } false
    else if v.localObs == .clear then s.changeView e c { v with localObs := .set } false
    else s

/-! ## Peer restarts (R118, R119) -/

/-- A far end takes an OPEN or a FAILED from its section's owner (R118). The entry is R94's: CLOSED
where the mirror was not CLOSED already, and OBSTRUCTION CLEARED in its place where the local flag was
set (DEDUCED, log entry 33). -/
def State.ownerRestarted (s : State) (e : EndNo) (c : EndCfg) : State :=
  let s := s.lapse e
  let s := s.changeView e c
    { (s.view e).toClosed with localObs := .clear, autoCancel := false, cancelRetry := none } false
  (s.setRelease e Release.none).updBell e fun b => { b with offer := none, outstanding := none }

/-- An owner takes an OPEN from the far end of a section (R119). The rule lists its effects without an
order: the pending request lapses first, so that the entry of its refusal stands before CANCELLED BY RESTART
and the refused mark of a lapsed CANCEL is cleared as CLEAR becomes BLOCKED (DESIGN CHOICE, log entry 8). -/
def State.farRestarted (s : State) (e : EndNo) (c : EndCfg) : State :=
  let s := s.lapse e
  let v := s.view e
  if v.state == .clear then
    (s.putView e c v.toBlocked).register (viewEntry c v .cancelledByRestart false)
  else s

end Sys2Proof.Machine
end

