-- ==== Sys2Proof/Machine/SwitchOps.lean ====
section
/-! DEFINITION. The switch record's shared operations (sections 7.2 to 7.5): going out, the returns to
IN and the forced switch-in, with what the bell unit and the waiting arrivals do. -/

namespace Sys2Proof.Machine

open Sys2Proof

/-- The key record of every pair end goes to IGNORED, its code discarded (R61). -/
def State.ignoreKeys (s : State) : State :=
  s.each s.pairEnds fun s e => s.updBell e fun b => { b with phase := .ignored, code := none }

/-- A key record in HOLD OFF, its open since set where the key is open (R56, R61). -/
def BellEnd.heldOff (b : BellEnd) (now : Nat) : BellEnd :=
  { b with phase := .holdOff (if b.keyIn.closed then none else some now), code := none }

/-- Every key record in IGNORED goes to HOLD OFF (R61). -/
def State.freeKeys (s : State) : State :=
  s.each allEnds fun s e =>
    s.updBell e fun b => if b.phase == .ignored then b.heldOff s.clock else b

/-- The switch state becomes OUT (R126, R133): registered, and the keys of pair ends ignored. -/
def State.goOut (s : State) : State :=
  ((s.updSwitch fun w => { w with state := .out }).register (EventInfo.plain .switchedOut)).ignoreKeys

/-- Every automatic arrival that waits is ended (R132, R135). -/
def State.endWaits (s : State) : State :=
  s.each allEnds fun s e => s.updProof e fun p => { p with waiting := false, retryAt := none }

/-- A switch record with a cause latched where it has none (R134, R135). -/
def SwitchRec.latch (w : SwitchRec) (c : SwitchCause) : SwitchRec :=
  { w with cause := some (w.cause.getD c) }

/-- The switch state returns to IN (R135). -/
def State.comeIn (s : State) (c : SwitchCause) : State :=
  let s := s.updSwitch fun w => { w.latch c with state := .inn }
  let s := s.register { EventInfo.plain .switchedIn with auto := c != .key }
  s.freeKeys.endWaits

/-- The switch mark is set where the key stands at OUT (R125, R134). -/
def State.markKey (s : State) : State :=
  s.updSwitch fun w => { w with mark := w.mark || (s.hasPairs && w.keyIn.closed) }

/-- The switch mark set or cleared by the key, as a switch record is created anew or PROVING is entered
(R125). -/
def State.beginSwitch (s : State) : State :=
  s.updSwitch fun w => { w with mark := s.hasPairs && w.keyIn.closed }

/-- The switch state is forced to IN by an urgent fault or by RESTART; where it is IN already, the
cause alone is latched (R134). A section CLOSED latches none then. The mark is set only where a switch-in
is forced, as the words of R134 have it: the table of section 7.5 sets it at every first urgent fault with
the key at OUT, which differs in LOADED alone (DESIGN CHOICE, log entry 37). -/
def State.forceIn (s : State) (c : SwitchCause) : State :=
  if s.switchedOut then (s.comeIn c).markKey
  else if s.hasPairs && c != .sectionClosed then s.updSwitch fun w => w.latch c
  else s

/-- The switch-in condition (R133): every pair end's view shows BLOCKED and its release is NONE. -/
def State.switchInHolds (s : State) : Bool :=
  s.pairEnds.all fun e => (s.view e).state == .blocked && (s.release e).state == .none

/-- A section of a pair is CLOSED while the station is switched out (R134). -/
def State.pairClosed (s : State) : Bool :=
  s.switchedOut && s.pairEnds.any fun e => (s.view e).state == .closed

/-- An IN PENDING whose switch-in condition holds (R133). -/
def State.switchInDone (s : State) : Bool := s.switch.state == .inPending && s.switchInHolds

/-- The switch state is judged after an event: a CLOSED pair view forces it IN (R134), and the
switch-in condition completes an IN PENDING (R133). -/
def State.judgeSwitch (s : State) : State :=
  if s.pairClosed then s.forceIn .sectionClosed
  else if s.switchInDone then s.comeIn .key
  else s

end Sys2Proof.Machine
end

