-- ==== Sys2Proof/Machine/BellOps.lean ====
section
/-! DEFINITION. The bell unit's shared operations (04_bell_working.md): matching a code, and the
occasions at which bell working begins and ceases. -/

namespace Sys2Proof.Machine

open Sys2Proof

/-! ## The code table (R59, R63) -/

/-- A code's groups lie within the limits of R59. -/
def codeFits (groups : List Nat) : Bool :=
  1 ≤ groups.length && groups.length ≤ 5 && groups.all (fun g => 1 ≤ g && g ≤ 9) && groups.sum ≤ 16

/-- A pattern's group values equal a code's groups one by one; ANY equals every count (R63). -/
def patternMatches : List (Option Nat) → List Nat → Bool
  | [], [] => true
  | p :: ps, g :: gs => (p.getD g == g) && patternMatches ps gs
  | _, _ => false

/-- A code tried against entries in order; a poisoned entry ends the matching (R63). -/
def State.matchFrom (s : State) (groups : List Nat) : List CodeNo → Meaning
  | [] => .unrecognised
  | k :: ks =>
    if s.badStatic (.code k) then .unrecognised
    else
      match look s.cfg.codes k with
      | some c => if patternMatches c.pattern groups then c.meaning else s.matchFrom groups ks
      | none => s.matchFrom groups ks

/-- The meaning of a code (R63). -/
def State.meaning (s : State) (groups : List Nat) (overlong : Bool) : Meaning :=
  if overlong then .unrecognised else s.matchFrom groups allCodes

/-- A bell entry (R154). -/
def bellEntry (c : EndCfg) (kind : EventKind) (groups : List Nat) (overlong : Bool) (m : Meaning) :
    EventInfo :=
  { EventInfo.ofSection kind c.section_ with
    groups := some groups, overlong := overlong, meaning := some m, cls := m.cls }

/-! ## Occasions (R56, R72) -/

/-- Every key record on entry to PROVING (R56). -/
def State.holdOffKeys (s : State) : State :=
  { s with bells := s.bells.map fun b => b.heldOff s.clock }

/-- Every bell output off. -/
def State.silence (s : State) : State :=
  { s with latches := { s.latches with bells := Vector.replicate 6 false } }

/-- Bell working ceases (R72): codes, offers and lost flags gone, keys in HOLD OFF, ringing cut. -/
def State.ceaseBells (s : State) : State :=
  let s := { s with
    bells := s.bells.map fun (b : BellEnd) => { BellEnd.fresh with keyIn := b.keyIn }
    replay := Replay.empty }
  s.silence

end Sys2Proof.Machine
end

