-- ==== Sys2Proof/Machine/FaultOps.lean ====
section
/-! DEFINITION. The integrity unit's shared operations (08_integrity_supervision.md): urgent faults,
lockdown, re-initialisation and verification. -/

namespace Sys2Proof.Machine

open Sys2Proof

/-! ## Freshness (R87, R120) -/

/-- The static records of the ends shared with a station. -/
def State.sharedStatics (s : State) (a : Addr) : List RecordId :=
  (s.endsWith a).map fun e => .fixed (.sectionEnd e)

/-- A station's END REPORT freshness becomes stale; STALE at each end owned toward it (R120). -/
def State.stationStale (s : State) (a : Addr) : State :=
  if (s.stationRec a).fresh then
    (s.updStation a fun r => { r with fresh := false }).each (s.endsWith a) fun s e =>
      match s.endCfg e with
      | some c => if c.owner then s.notify .stale (endSubject e) else s
      | none => s
  else s

/-- A mirror becomes stale (R120): its pending request lapses and STALE is raised. -/
def State.mirrorStale (s : State) (e : EndNo) : State :=
  if (s.lineEnd e).fresh then
    ((s.updLineEnd e fun x => { x with fresh := false }).lapse e).notify .stale (endSubject e)
  else s

/-! ## Urgent faults (R145 to R148) -/

/-- The subject of an URGENT FAULT: the low byte of the index, 0 where absent (R146, R157). -/
def FaultItem.subject (x : FaultItem) : Nat := x.index % 256

/-- Every pending request lapses (R122). -/
def State.lapseAll (s : State) : State := s.each allEnds fun s e => s.lapse e

/-- A first urgent fault (R145, R146): the report is filled, the station RESTRICTIVE, holds cleared and
every output commanded off at once, releases ended, requests lapsed, the switch forced IN, the notice
raised. The lapses are taken before the forced switch-in, and what waited for them is attempted at the
event's close, when the switch-in has ended the automatic arrivals that waited: the spec gives no order
(DESIGN CHOICE, log entry 34). The SECTION STATE telegrams with owner fault and the END REPORT are
offered at the close as the changes they are. -/
def State.firstUrgent (s : State) (k : UrgentKind) (x : FaultItem) (op : Option Operation)
    (eff : Effect) : State :=
  let back := if s.service == .loaded then Service.loaded else .proving
  let filled : FaultReport :=
    ⟨k, x, op, eff, s.records.time, s.records.timeValid, some back, false, false, false⟩
  let s := s.updIntegrity fun g => { g with report := some filled }
  let s := { s with service := .restrictive }
  let s := s.clearHolds.commandOutputs.lapseAll
  let s := s.each allEnds fun s e => s.followRelease e
  (s.forceIn .fault).notify .urgentFault x.subject

/-- The multiple flag of a kind set (R147). -/
def FaultReport.mark (r : FaultReport) (k : UrgentKind) : FaultReport :=
  match k with
  | .checkWord => { r with multiCheckWord := true }
  | .selfCheck => { r with multiSelfCheck := true }
  | .outputReadback => { r with multiReadback := true }

/-- Entry to LOCKDOWN (R148): every block stops, every output is commanded off, FAILED is sent where it
can be, LOCKDOWN raised; a RESUME in progress ends (R150). The scrub position is kept, as the table after
R152 gives for a further urgent fault: R138 has the scrubber go on from the first record after a RESUME
pass, which this is read to leave to a pass that ends by itself (DESIGN CHOICE, log entry 35). -/
def State.enterLockdown (s : State) : State :=
  let s := { s with service := .lockdown }
  let s := s.clearHolds.clearLanes.commandOutputs.ceaseBells.sendFailed
  let s := s.updIntegrity fun g =>
    { g with resume := if g.resume == .running then .lockdown else g.resume }
  (s.updPanel fun p => { p with command := none }).notify .lockdown 0

/-- A further urgent fault (R147): the flag of its kind set, the station in LOCKDOWN. The releases and
demands follow what the event has made of the views before the section unit stops (R98, R128). -/
def State.furtherUrgent (s : State) (k : UrgentKind) : State :=
  let s := s.updIntegrity fun g => { g with report := g.report.map (·.mark k) }
  (s.followViews.forceIn .fault).enterLockdown

/-- An urgent fault is reported, and answered by the service state (R143, R145, R147, R148). -/
def State.urgent (s : State) (k : UrgentKind) (x : FaultItem) (op : Option Operation)
    (eff : Effect) : State :=
  match s.service with
  | .loaded | .proving | .inService => s.firstUrgent k x op eff
  | .restrictive => s.furtherUrgent k
  | .lockdown =>
    match k with
    | .checkWord => s.updIntegrity fun g => { g with report := g.report.map (·.mark .checkWord) }
    | _ => s
  | .unloaded | .loading => s

/-! ## Re-initialisation (R139 and the table of section 8.1) -/

/-- The owed mark of an OPEN or OPEN ACK that a damaged queue held, or that its eighth collision discarded
(R78, R80). Where a newer one is owed already, the older one's moment and what it says of the digests replace
the newer one's: the rule does not say which stands (DESIGN CHOICE, log entry 47). -/
def State.oweLost (s : State) (t : TxEntry) : State :=
  match t.body, t.endNo with
  | .opening _, _ => s.updLine fun u => { u with owedOpen := some (s.owedAt true) }
  | .openAck m, some e =>
    s.updLineEnd e fun x => { x with owedAck := some (s.owedAt m.digestsMatch) }
  | _, _ => s

/-- A damaged transmit queue (R80). The END REPORT and the SECTION STATE of every owned section are
offered anew when the event closes. -/
def State.reinitQueue (s : State) : State :=
  (s.cutLine.notify .lineBusy 0).each s.line.queue fun s t => (s.requestLost t).oweLost t

/-- A section record or mirror re-initialised as a new one (R93, R95, R123), and the release and the
demand as that leaves them (R98, R128). -/
def State.reinitView (s : State) (e : EndNo) : State :=
  match s.endCfg e with
  | none => s
  | some c =>
    let t := (s.changeView e c View.fresh false).followRelease e
    match s.throughRearOf e with
    | some r => t.followDemand r
    | none => t

/-- A damaged demand: PASSING if its end's release is CONSUMED, else absent (R128). The spec gives no
partner number and no last refusal: the number is kept, 0 where no demand was, and the refusal is made
absent (DESIGN CHOICE, log entry 36). -/
def State.reinitDemand (s : State) (e : EndNo) : State :=
  s.updEnd e fun d =>
    { d with demand :=
        if d.release.state == .consumed then
          some ⟨d.release.acc, .passing, (d.demand.map (·.partnerNo)).getD 0, none, none⟩
        else none }

/-- The normal time of a CONSUMED release whose lever arrives at or departs from NORMAL (R97). -/
def State.normalTime (s : State) (l : LeverNo) (new : LeverPos) : State :=
  match (s.leverCfg l).releaseOf with
  | some e =>
    if s.working && (s.release e).state == .consumed then
      s.updEnd e fun d => { d with release := { d.release with
        normalAt := if new == .normal then some s.clock else none } }
    else s
  | none => s

/-- A staged collar change is applied when the lever leaves MID (R29). -/
def Collar.apply (c : Collar) : Collar := ⟨c.staged.getD c.effective, none⟩

/-- A lever that stands at MID leaves it: its staged collar change is applied (R29). -/
def State.leaveMid (s : State) (l : LeverNo) : State :=
  if (s.lever l).position == .mid then s.updCollar l Collar.apply else s

/-- A damaged lever record (R22): UNKNOWN, which is a change of position for the collars (R24, R29). -/
def State.reinitLever (s : State) (l : LeverNo) : State :=
  (s.leaveMid l).updLever l fun _ => Lever.fresh

/-- A damaged timer: RUNNING with its full duration; IDLE if not configured (R34). The TIMER STATIC record tells the
duration as it is held, poisoned or not (DESIGN CHOICE, log entry 72). -/
def State.reinitTimer (s : State) (t : TimerNo) : State :=
  { s with timers := upd s.timers t fun _ =>
      (look s.cfg.timers t).map fun c => s.clock + Config.secs c.duration }

/-- The collar set with every lock-fitted lever collared (R29): those that their LEVER STATIC records name a lock
output for as they are held, poisoned or not (DESIGN CHOICE, log entry 72). -/
def State.collarAll (s : State) : State :=
  { s with collars := build 64 fun l => ⟨(s.leverCfg l).lock.isSome, none⟩ }

/-- A damaged dynamic record is given the value of section 8.1's table; a static one is left. Where that value
depends on a static record, as the reference of a channel does on its Rnom, it is taken from that record as it is
held, poisoned or not (DESIGN CHOICE, log entry 72). -/
def State.reinit (s : State) (r : RecordId) : State :=
  match r with
  | .fixed _ | .digest _ => s
  | .channel c => s.updChannel c fun _ => Channel.fresh (s.channelCfg c).rnom
  | .lever l => s.reinitLever l
  | .collars => s.collarAll
  | .timer t => s.reinitTimer t
  | .key e => s.updBell e fun b => { b with phase := .holdOff none, code := none }
  | .offer e => s.updBell e fun b => { b with offer := none }
  | .outstanding e => s.updBell e fun b => { b with outstanding := none }
  | .replay => State.silence { s with replay := Replay.empty }
  | .queue => s.reinitQueue
  | .stationRec a => (s.stationStale a).updStation a fun _ => StationRec.created
  | .freshness e => (s.mirrorStale e).updLineEnd e fun x => { x with stateAt := none }
  | .sub i => s.updSub i fun _ => SubEntry.fresh
  | .sectionRec e | .mirror e => s.reinitView e
  | .release e => s.setRelease e Release.none
  | .demand e => s.reinitDemand e
  | .switch => ((s.forceIn .fault).updSwitch fun w => { w with refusal := none }).beginSwitch

/-- The records of the station's through pairs. -/
def State.pairStatics (s : State) : List RecordId :=
  (allPairs.filter fun p => (s.pairCfg p).isSome).map fun p => .fixed (.pair p)

/-- The further records by which a record is re-initialised, or what follows from that is judged (section 8.1's
table): configured values, the collar set for a lever that leaves MID, and the release for a demand; none in
LOCKDOWN, in which no record is re-initialised (R139). -/
def State.reinitReads (s : State) (r : RecordId) : List RecordId :=
  if s.service == .lockdown then []
  else
    match r with
    | .channel c => [.fixed (.channel c)]
    | .lever l => .fixed (.lever l) :: if (s.lever l).position == .mid then [.collars] else []
    | .collars => allLevers.map fun l => .fixed (.lever l)
    | .timer t => [.fixed (.timer t)]
    | .stationRec a => s.sharedStatics a
    | .freshness e | .sectionRec e | .mirror e => [.fixed (.sectionEnd e)]
    | .demand e => [.release e]
    | .switch => s.pairStatics
    | .fixed _ | .digest _ | .key _ | .offer _ | .outstanding _ | .replay | .queue | .sub _ | .release _ => []

/-! ## Verification (R137 to R140) -/

/-- The effect of damage on the operation that met it (R140). -/
def damageEffect (op : Operation) (r : RecordId) : Effect :=
  match op, r with
  | .scrub, _ | .panelRead, _ => .none
  | .lockEvaluation, _ => .notApplied
  | _, .fixed (.code _) => .applied
  | _, r => if r.isStatic then .notApplied else .applied

/-- A verification finds a mismatch on a record that is not poisoned (R137, R139): in LOCKDOWN the
record is poisoned and stays so; elsewhere a dynamic record is re-initialised and its poison cleared
in the event, and a static one is poisoned. The CHECK WORD fault is reported. A transmit queue found damaged in
LOCKDOWN keeps its FAILED, and no transmission is cut off (DESIGN CHOICE, log entry 68). -/
def State.mismatch (s : State) (op : Operation) (r : RecordId) : State :=
  let keep := s.service == .lockdown || r.isStatic
  let s := s.updIntegrity fun g =>
    { g with
      damaged := g.damaged.filter (· != r)
      poisoned := if keep then g.poisoned ++ [r] else g.poisoned }
  let s := if keep then s else s.reinit r
  s.urgent .checkWord (.record r) (some op) (damageEffect op r)

/-- A lever's change of position is handed to the section unit, which reads the release record for it, the
record verified by the read (R24, R97). -/
def State.normalMoved (s : State) (l : LeverNo) (new : LeverPos) : State :=
  match (s.leverCfg l).releaseOf with
  | some e =>
    if s.working then
      State.normalTime
        (if s.isDamaged (.release e) then s.mismatch .sectionUpdate (.release e) else s) l new
    else s
  | none => s

/-- The records among those read whose damage no verification has found yet. -/
def State.hits (s : State) (reads : List RecordId) : List RecordId :=
  s.integrity.damaged.filter reads.contains

/-- The mismatches among the records that a re-initialisation reads (R137), taken after that of the record
itself. The operation is the one that found it, and no record that these are re-initialised from in turn is
verified: no rule speaks of such reads (DESIGN CHOICE, log entry 44). -/
def State.rereads (s : State) (op : Operation) (reads : List RecordId) : State :=
  s.each (s.hits reads) fun s r => if s.isDamaged r then s.mismatch op r else s

/-- A mismatch with what follows from it: the records read for the re-initialisation are verified, and a lever
that comes to be UNKNOWN by it has changed its position (R22, R24). -/
def State.found (s : State) (op : Operation) (r : RecordId) : State :=
  let t := (s.mismatch op r).rereads op (s.reinitReads r)
  match r with
  | .lever l => if (s.lever l).position == .unknown then t else t.normalMoved l .unknown
  | _ => t

/-- An operation verifies the records it reads (R137); one that what an earlier one brought has met already
is not met again. -/
def State.verify (s : State) (op : Operation) (reads : List RecordId) : State :=
  s.each (s.hits reads) fun s r => if s.isDamaged r then s.found op r else s

/-- An event of a block that closes nothing: its records are verified and it acts; where damage is found
the event is closed as `close` gives. -/
def State.guarded (s : State) (op : Operation) (reads : List RecordId) (act : State → State)
    (close : State → State → State) : State :=
  if (s.hits reads).isEmpty then act s else close (act (s.verify op reads)) s

end Sys2Proof.Machine
end

