-- ==== Sys2Proof/Machine/Requests.lean ====
section
/-! DEFINITION. What builds single telegrams and what leads to them: requests, OPEN, OPEN ACK and ANSWER
(05_the_block_line.md), the releases granted, automatic acceptance, cancellation and arrival
(06_sections_and_block_instruments.md, 07_switching_out.md). Every record read for use is verified by
the read (R137, R140). -/

namespace Sys2Proof.Machine

open Sys2Proof

/-! ## The records that are read -/

/-- The records of a track as a condition or a proof reads it (R43, R44). -/
def State.trackReads (s : State) : Track → List RecordId
  | .here c => [.fixed (.channel c), .channel c]
  | .far i =>
    [.fixed (.sub i), .sub i] ++
      match look s.cfg.subs i with
      | some c => [.stationRec c.publisher]
      | none => []

/-- Both parts of a lever record. -/
def leverReads (l : LeverNo) : List RecordId := [.fixed (.lever l), .lever l]

/-- Both parts of the record of a lever that may be absent. -/
def leverReadsOpt (l : Option LeverNo) : List RecordId :=
  match l with
  | some l => leverReads l
  | none => []

/-- The records of an end's view: its static record, the section record or the mirror with its
freshness. -/
def State.viewReads (s : State) (e : EndNo) : List RecordId :=
  match s.endCfg e with
  | some c =>
    [.fixed (.sectionEnd e), c.viewRecord e] ++ if c.owner then [] else [.freshness e]
  | none => []

/-- The records an acceptance reads besides the view: the offer, the clearance tracks and, at the owner,
the neighbour's station record (R102, R103). -/
def State.acceptReads (s : State) (e : EndNo) (c : EndCfg) : List RecordId :=
  .offer e :: c.clearance.flatMap s.trackReads ++ if c.owner then [.stationRec c.neighbour] else []

/-- The records that the judgement of a release reads: the release and its demand (R98, R128). -/
def releaseReads (e : EndNo) : List RecordId := [.release e, .demand e]

/-- The record of the through pair of an end, which tells its partner and whether it is a through rear or
accepting end (section 7.1). -/
def State.pairReads (s : State) (e : EndNo) : List RecordId :=
  (s.pairOf e).toList.map fun p => .fixed (.pair p)

/-- The records that the granting of a release reads besides: the switch record, the through pair and the
release lever (R96, R127). -/
def State.grantReads (s : State) (e : EndNo) (c : EndCfg) : List RecordId :=
  .switch :: s.pairReads e ++ leverReadsOpt c.releaseLever

/-- The records whose latches a consumption at an end clears while the station is switched out: the levers
of its pair (R32). -/
def State.latchReads (s : State) (e : EndNo) : List RecordId :=
  match (s.pairOf e).bind s.pairCfg with
  | some p => if s.switchedOut then p.levers.flatMap leverReads else []
  | none => []

/-- The records that the settlement of an end's pending request reads besides the view, by what made it: a
demand (R129), or for an automatic arrival the switch record and the through pair (R132). -/
def State.settleReads (s : State) (e : EndNo) : List RecordId :=
  match (s.view e).pending with
  | some p =>
    match p.origin with
    | .demand rear => [.demand rear]
    | .autoArrival _ => .switch :: s.pairReads e
    | .commutator | .autoCancel => []
  | none => []

/-- The record of the first proving track, which a new arrival proof reads (R108). -/
def State.firstReads (s : State) (c : EndCfg) : List RecordId :=
  match c.proving with
  | t :: _ => s.trackReads t
  | [] => []

/-- A view that comes to show OCCUPIED toward this end has its arrival proof created: the first track's
record is verified by the read (R108). -/
def State.proofVerify (s : State) (c : EndCfg) (old new : View) : State :=
  if new.shows .occupied c.toHere && !old.shows .occupied c.toHere then
    s.verify .sectionUpdate (s.firstReads c)
  else s

/-! ## Single telegrams (R82, R86, R100) -/

/-- A request is made (R82, R100): the records its telegram is built from are verified, the number is
raised in any case, and the request becomes pending where the telegram is built and the queue takes it;
otherwise LINE BUSY is raised and what a refusal brings its maker is done. -/
def State.makeRequest (s : State) (e : EndNo) (c : EndCfg) (kind : ReqKind) (cls : Nat)
    (origin : Origin) (refused : State → State) : State :=
  let s := s.verify .telegramBuild (.fixed (.sectionEnd e) :: placeReads)
  if !s.working then s
  else
    let v := s.view e
    let next := (v.nextReq + 1) % 256
    if s.takesAt e then
      (s.enqueue ⟨c.neighbour.val, .request ⟨c.section_, v.nextReq, kind, cls⟩, some e⟩).updView e
        fun v => { v with
          nextReq := next
          pending := some ⟨kind, v.nextReq, s.clock + Config.requestTimeout, origin⟩ }
    else refused ((s.notify .lineBusy (endSubject e)).updView e fun v => { v with nextReq := next })

/-- OPEN is offered (R86); `mark` is what the owed mark becomes where the queue takes it. A poisoned
static record of a section end leaves it unbuilt, which is taken as a refusal (R139, R172). An older
OPEN that still stands in the queue, re-offered as owed, is left there and the new one joins at the tail:
the rule that a new OPEN replaces the owed one does not say that a queued copy goes (DESIGN CHOICE, log
entry 38). The mark of a new OPEN that the queue takes is none: the rule does not say that it is owed in its
turn until it is sent (DESIGN CHOICE, log entry 46). -/
def State.offerOpen (s : State) (mark : Option Owed) : State :=
  let s := s.verify .telegramBuild (placeReads ++ s.endStatics)
  if !s.working then s
  else if s.takesSingle && s.reportSound then
    (s.enqueue ⟨0, s.openTelegram, none⟩).updLine fun u => { u with owedOpen := mark }
  else
    (s.notify .lineBusy 0).updLine fun u => { u with owedOpen := some (s.owedAt true) }

/-- OPEN ACK is offered for a section end (R86, R116); an older one still queued is left there, as for
OPEN (DESIGN CHOICE, log entry 38), and a new one that the queue takes is not owed (DESIGN CHOICE, log
entry 46). -/
def State.offerAck (s : State) (e : EndNo) (digestsMatch : Bool) (mark : Option Owed) : State :=
  match s.endCfg e with
  | none => s
  | some c =>
    let s := s.verify .telegramBuild (s.stateReads e)
    if !s.working then s
    else if s.takesAt e then
      (s.enqueue (s.ackTelegram e c digestsMatch)).updLineEnd e fun x => { x with owedAck := mark }
    else
      (s.notify .lineBusy (endSubject e)).updLineEnd e fun x =>
        { x with owedAck := some (s.owedAt digestsMatch) }

/-- An ANSWER is offered; refused, it is lost and LINE BUSY is raised (R82). Its section id, number and
address are those of the REQUEST it answers, so that the answer FAULT of R101 can be given while the
section end's static record is poisoned. -/
def State.offerAnswer (s : State) (e : EndNo) (c : EndCfg) (number : Nat) (o : Outcome) : State :=
  let s := s.verify .telegramBuild placeReads
  if !s.working then s
  else if s.takesSingle then
    s.enqueue ⟨c.neighbour.val, .answer ⟨c.section_, number, o⟩, some e⟩
  else s.notify .lineBusy (endSubject e)

/-- What the line unit does on entry to PROVING: OPEN, then the END REPORT, then a SECTION STATE for
each owned end, in order (R75), the records they are built from verified. -/
def State.beginLine (s : State) : State :=
  let s := (s.offerOpen none).verify .telegramBuild
    (s.reportReads ++ s.ownedEnds.flatMap s.stateReads)
  s.offerEndReport.offerAllStates

/-! ## Automatic acceptance (R128, R129) -/

/-- An auto-acceptance judged by the checks of R102 or R103, the home lever's left out, while the station
is still OUT (R129). -/
def State.acceptFor (s : State) (rear a : EndNo) (c : EndCfg) : State :=
  if !s.working || s.switch.state != .out then s
  else if s.badStatic (.sectionEnd a) then s.demandRefused rear a .fault
  else if c.owner then
    match s.ownerChecks a c false with
    | some r => s.demandRefused rear a r
    | none =>
      let s := s.takeAcceptance a c
      s.demandAccepted rear (s.view a).acc
  else
    match s.farChecks a c false with
    | some r => s.demandRefused rear a r
    | none =>
      s.makeRequest a c .accept (s.offerClass a) (.demand rear) fun s =>
        s.demandRefused rear a .lineBusy

/-- An auto-acceptance is attempted for the WAITING demand of a through rear end, while OUT (R129).
The retry time becomes absent. -/
def State.attemptAcceptance (s : State) (rear : EndNo) : State :=
  match s.demand rear, s.throughAccepting rear with
  | some d, some a =>
    if s.switch.state != .out || d.state != .waiting then s
    else
      match s.endCfg a with
      | none => s
      | some c =>
        State.acceptFor
          ((s.updDemand rear fun d => { d with retryAt := none }).verify .sectionUpdate
            (s.pairReads rear ++ s.viewReads a ++ s.acceptReads a c)) rear a c
  | _, _ => s

/-- A through release was consumed: a demand is created WAITING, in place of an earlier one, and an
auto-acceptance attempted at once (R128). -/
def State.createDemand (s : State) (e : EndNo) : State :=
  State.attemptAcceptance
    (s.updEnd e fun d => { d with demand := some ⟨(s.release e).acc, .waiting, 0, none, none⟩ }) e

/-! ## Releases granted (R96, R127) -/

/-- What an entry to CLEAR toward the neighbour under a new number brings the release record (R96,
R127). -/
def State.grantRelease (s : State) (e : EndNo) (c : EndCfg) : State :=
  let v := s.view e
  let ready := (s.release e).state == .none && s.sound e && s.service == .inService
  match c.releaseLever with
  | none => s
  | some l =>
    let through := s.switch.state == .out && s.isThroughRear e
    let wanted := if through then LeverPos.reverse else LeverPos.normal
    if !ready || s.badLever l then s
    else if (s.lever l).position != wanted then s.notify .releaseNotTaken (endSubject e)
    else if through then (s.consume e v.acc).createDemand e
    else s.setRelease e ⟨.available, v.acc, none⟩

/-- The release record is judged at an event of its view (R96, R98, R127): what the view no longer
upholds is ended, and then an entry to CLEAR toward the neighbour under a new number may set it. A
release held under an old number is so ended before the new one is granted in the same event: R95 names
R96 and R98 without saying which is judged first (DESIGN CHOICE, log entry 39). -/
def State.judgeRelease (s : State) (e : EndNo) (c : EndCfg) (old : View) : State :=
  if !c.canRear then s
  else
    let s := (s.verify .sectionUpdate (releaseReads e)).followRelease e
    let v := s.view e
    if v.shows .clear c.away && !old.clearUnder v.acc then
      (s.verify .sectionUpdate (s.grantReads e c ++ s.latchReads e)).grantRelease e c
    else s

/-! ## Automatic cancellation (R113) -/

/-- The CANCEL under the auto-cancel mark is made, if the mark stands: at once where no request is pending, and
else when the one that is has been settled, a CANCEL for an earlier acceptance too (DEDUCED, log entry 9);
refused LINE BUSY, it is made again 2 s later. -/
def State.attemptCancel (s : State) (e : EndNo) (c : EndCfg) : State :=
  let v := s.view e
  if !v.autoCancel then s
  else if v.pending.isSome then s.updView e fun v => { v with cancelDue := true }
  else
    (s.updView e fun v => { v with cancelDue := false, cancelRetry := none }).makeRequest e c .cancel 0
      .autoCancel
      fun s => s.updView e fun v => { v with cancelRetry := some (s.clock + Config.refreshPeriod) }

/-! ## Automatic arrival (R132) -/

/-- A complete proof stands at an end whose view shows OCCUPIED toward it. -/
def State.arrivalReady (s : State) (e : EndNo) (c : EndCfg) : Bool :=
  ((s.view e).proof.map (·.complete)).getD false && (s.view e).shows .occupied c.toHere

/-- ARRIVED is applied automatically, or waits, on the records as they stand (R132). -/
def State.giveArrival (s : State) (e : EndNo) (c : EndCfg) : State :=
  let v := s.view e
  if !s.autoArrives e then s
  else if c.owner then
    if v.pending.isSome then s.updProof e fun p => { p with waiting := true }
    else s.changeView e c v.toBlocked true
  else if v.pending.isSome || !(s.lineEnd e).fresh then
    s.updProof e fun p =>
      { p with waiting := true, retryAt := some (s.clock + Config.refreshPeriod) }
  else
    let seen := v.proof.any (·.refusedSeen)
    (s.updProof e fun p => { p with auto := true, waiting := false, retryAt := none }).makeRequest
      e c .arrived 0 (.autoArrival seen) fun s => s.autoArrivalRefused e c seen .lineBusy

/-- An automatic arrival is attempted on a complete proof; at an end of a through pair the pair's record and
the switch record are verified by the read (R132). -/
def State.attemptArrival (s : State) (e : EndNo) (c : EndCfg) : State :=
  if s.arrivalReady e c && (s.pairOf e).isSome then
    (s.verify .sectionUpdate (.switch :: s.pairReads e)).giveArrival e c
  else s

/-- The proof is complete; its wait ends, and the arrival is given out where the part does so. -/
def State.completeProof (s : State) (e : EndNo) (c : EndCfg) : State :=
  State.attemptArrival (s.updProof e fun p => { p with complete := true, waitUntil := none }) e c

/-- The request was the automatic arrival of the proof that stands; its refusal is made again at the retry
time, and not at the settlement (R132). -/
def Proof.asked (p : Proof) : Origin → Bool
  | .autoArrival _ => p.auto
  | .commutator | .demand _ | .autoCancel => false

/-- What waited for the end's pending request to be settled is attempted: a CANCEL under the
auto-cancel mark (R113), an automatic arrival (R132). -/
def State.afterSettled (s : State) (e : EndNo) (c : EndCfg) (was : Origin) : State :=
  let v := s.view e
  if v.cancelDue then s.attemptCancel e c
  else if v.proof.any fun p => p.waiting && !p.asked was then s.attemptArrival e c
  else s

/-! ## Events of the tracks (R106, R108) -/

/-- A track as this station judges it came to be known OCCUPIED, from any other state, known or not
(R106). -/
def occupies (s0 s1 : State) (t : Track) : Bool := s1.knownOccupied t && !s0.knownOccupied t

/-- A track went from one known state to known OCCUPIED; passing out of being not known moves no
proof (R108). -/
def becameOccupied (s0 s1 : State) (t : Track) : Bool := occupies s0 s1 t && (s0.track t).isSome
/-- A track went from one known state to known CLEAR. -/
def becameClear (s0 s1 : State) (t : Track) : Bool :=
  s1.knownClear t && !s0.knownClear t && (s0.track t).isSome

/-- One track of a proving list, the i-th from 1, moves a proof's progress; the flag says that the
proving was broken (R108). -/
def provingStep (s0 s1 : State) (ts : List Track) (x : Nat × Bool) (i : Nat) : Nat × Bool :=
  match ts[i - 1]? with
  | none => x
  | some t =>
    let before := match ts[i - 2]? with
      | some u => s1.knownOccupied u
      | none => false
    let ahead := match ts[i]? with
      | some u => s1.knownOccupied u
      | none => false
    if becameOccupied s0 s1 t && x.1 + 1 == i && (i == 1 || before) then (i, x.2)
    else if becameClear s0 s1 t && x.1 == i && i < ts.length && !ahead then (0, true)
    else x

/-- The proof at progress n is complete at this event (R108). -/
def provingDone (s0 s1 : State) (ts : List Track) : Bool :=
  match ts with
  | [] => false
  | [t] => becameClear s0 s1 t
  | _ =>
    ts.any (fun t => s0.track t != s1.track t && (s0.track t).isSome && (s1.track t).isSome) &&
      (ts.take (ts.length - 1)).all s1.knownClear

/-- An incomplete proof follows the changes of its tracks in an event that began at `s0` (R108). -/
def State.followProof (s : State) (s0 : State) (e : EndNo) : State :=
  match s.endCfg e, (s.view e).proof with
  | some c, some p =>
    if p.complete then s
    else
      let x := (List.range c.proving.length).foldl
        (fun x i => provingStep s0 s c.proving x (i + 1)) (p.p, false)
      let s' := s.updProof e fun p => { p with p := x.1 }
      let s' := if x.2 then s'.notify .provingBroken (endSubject e) else s'
      if x.1 == c.proving.length && provingDone s0 s c.proving then s'.completeProof e c else s'
  | _, _ => s

/-- The rear end's entry track as the owner judges it (R106). -/
def EndCfg.rearEntry (c : EndCfg) (d : Direction) : Option Track :=
  match d with
  | .outward => c.entryTrack.map .here
  | .inward => c.farEntry.map .far
  | .none => none

/-- The rear end's entry track of a CLEAR section record became known OCCUPIED in an event that began at
`s0` (R106). -/
def State.occupiedSince (s : State) (s0 : State) (e : EndNo) (c : EndCfg) : Bool :=
  let v := s.view e
  c.owner && v.state == .clear && ((c.rearEntry v.dir).map (occupies s0 s)).getD false

/-- A CLEAR section record becomes OCCUPIED when the rear end's entry track becomes known OCCUPIED in
an event that began at `s0` (R106). -/
def State.autoOccupy (s : State) (s0 : State) (e : EndNo) : State :=
  match s.endCfg e with
  | none => s
  | some c => if s.occupiedSince s0 e c then s.changeView e c (s.view e).toOccupied true else s

end Sys2Proof.Machine
end

