-- ==== Sys2Proof/Machine/Closing.lean ====
section
/-! DEFINITION. The pass that closes an event: what the blocks do with the changes an event has made, the
records they read for that (R137, R140), the evaluator's judgement with the outputs (R52) and the
telegrams that the changes call for (R85). -/

namespace Sys2Proof.Machine

open Sys2Proof

/-! ## The section unit's answers -/

/-- What waited for a request that has been settled since `base` is attempted (R113, R132). -/
def State.settledReactions (s base : State) : State :=
  s.each allEnds fun s e =>
    match s.endCfg e, (base.view e).pending with
    | some c, some p => if (s.view e).pending == some p then s else s.afterSettled e c p.origin
    | _, _ => s

/-- The section unit answers the changes of the tracks since `base`: proofs first, then automatic
occupation (R106, R108). -/
def State.trackReactions (s base : State) : State :=
  (s.each allEnds fun s e => s.followProof base e).each allEnds fun s e => s.autoOccupy base e

/-! ## Proving (R144) -/

/-- Every lever with an output stands at NORMAL (R38). -/
def State.leversNormal (s : State) : Bool :=
  allLevers.all fun l =>
    ((s.leverCfg l).lock.isNone && (s.leverCfg l).control.isNone) || (s.lever l).position == .normal

/-- A channel is settled (R15). -/
def State.settled (s : State) (c : ChanNo) : Bool := (s.channel c).settle == (s.channelCfg c).np

/-- The proving condition (R144). -/
def State.provingHolds (s : State) : Bool := s.leversNormal && allChannels.all s.settled

/-- The events at which the proving condition is judged: the entry to PROVING, a change of the frame unit's
lever condition, and a change of a channel's settled condition (R144), since `base`. -/
def State.provingAsked (s base : State) : Bool :=
  s.live && s.service == .proving &&
    (base.service != .proving || s.leversNormal != base.leversNormal
      || allChannels.any fun c => s.settled c != base.settled c)

/-- Both parts of every channel record, which the proving condition reads (R15). -/
def channelReads : List RecordId :=
  allChannels.flatMap fun c => [RecordId.fixed (.channel c), .channel c]

/-- The records that the proving condition is judged on, verified where it is judged: the frame unit's reads
of the levers as LOCK EVALUATION, those of the channels as TRACK UPDATE (DESIGN CHOICE, log entry 44). -/
def State.conditionVerify (s base : State) : State :=
  if s.provingAsked base then
    (s.verify .lockEvaluation (allLevers.flatMap leverReads)).verify .trackUpdate channelReads
  else s

/-- The records read as PROVING is about to pass to IN SERVICE: those of the condition, and where it holds the
collar set, by which the frame unit commands the locks of levers at NORMAL from that event (R25, R38, R140). -/
def State.provingVerify (s base : State) : State :=
  let s := s.conditionVerify base
  s.verify .lockEvaluation (if s.provingAsked base && s.provingHolds then [.collars] else [])

/-- PROVING passes to IN SERVICE at the first event at which the proving condition holds (R144). -/
def State.judgeProving (s base : State) : State :=
  if s.provingAsked base && s.provingHolds then { s with service := .inService } else s

/-! ## What an event has changed -/

/-- A record has been poisoned, re-initialised or repaired since `s0` (R52): its poison differs, or damage that
waited to be found there has gone, whatever values it has been given in its place. -/
def poisonMoved (s0 s : State) (rs : List RecordId) : Bool :=
  rs.any fun r => s.isPoisoned r != s0.isPoisoned r || (s0.isDamaged r && !s.isDamaged r)

/-- A view, its freshness or its poison has changed. -/
def viewMoved (s0 s : State) (e : EndNo) : Bool :=
  s.view e != s0.view e || (s.lineEnd e).fresh != (s0.lineEnd e).fresh
    || poisonMoved s0 s (s.viewReads e)

/-- A remote track's entry, its publisher's freshness or its publisher's lockdown mark has changed, known or
not as the track may be (R52, R90). -/
def remoteMoved (s0 s : State) : Track → Bool
  | .here _ => false
  | .far i =>
    (s.sub i).state != (s0.sub i).state ||
      match look s.cfg.subs i with
      | some c =>
        (s.stationRec c.publisher).fresh != (s0.stationRec c.publisher).fresh
          || (s.stationRec c.publisher).lockdown != (s0.stationRec c.publisher).lockdown
      | none => false

/-- What a track is judged by has changed: its reported state, or a remote entry with its publisher's
freshness and lockdown mark. -/
def trackMoved (s0 s : State) (t : Track) : Bool :=
  s.track t != s0.track t || remoteMoved s0 s t || poisonMoved s0 s (s.trackReads t)

/-- An end's view, release or release's number has changed. -/
def endMoved (s0 s : State) (e : EndNo) : Bool := viewMoved s0 s e || s.release e != s0.release e

/-- The section record, or the mirror with its freshness, that a section condition reads (R45). -/
def State.shownReads (s : State) (e : EndNo) : List RecordId :=
  match s.endCfg e with
  | some c => c.viewRecord e :: if c.owner then [] else [.freshness e]
  | none => []

/-- The records a condition reads. A section condition does not read the end's static record, whose poison
is none of those that R48 names for it. -/
def State.condReads (s : State) : Cond → List RecordId
  | .leverNormal l | .leverReverse l => leverReads l
  | .trackClear t | .trackOccupied t => s.trackReads t
  | .sectionBlocked e | .sectionOccupied e => s.shownReads e
  | .releaseAvailable e | .releaseConsumed e => [.release e]
  | .timerIdle t => [.fixed (.timer t), .timer t]
  | .switchedIn | .switchedOut => [.switch]

/-- An event has changed a record that a condition reads (R52). -/
def condMoved (s0 s : State) (c : Cond) : Bool :=
  poisonMoved s0 s (s.condReads c) ||
    match c with
    | .leverNormal l | .leverReverse l => (s.lever l).position != (s0.lever l).position
    | .trackClear t | .trackOccupied t => trackMoved s0 s t
    | .sectionBlocked e | .sectionOccupied e => viewMoved s0 s e
    | .releaseAvailable e | .releaseConsumed e => s.release e != s0.release e
    | .timerIdle t => (look s.timers t).isNone != (look s0.timers t).isNone
    | .switchedIn | .switchedOut => s.switch.state != s0.switch.state

/-! ## The evaluator's reads (R48, R52) -/

/-- The section end whose release and sound view an expression's automatic term reads (R50). -/
def State.termEnd (s : State) (x : Expr) : Option EndNo :=
  match x.kind with
  | .control => (s.leverCfg x.lever).releaseOf
  | .reverse | .normal => none

/-- An expression's automatic term reads the switch state (R51). -/
def State.termSwitch (s : State) (x : Expr) : Bool :=
  x.kind == .normal && (s.leverCfg x.lever).throughOf.isSome

/-- The records that an expression's automatic term reads: of an end, the release and the view's with the
end's static record, since the view is not sound while that is poisoned (R123). -/
def State.termReads (s : State) (x : Expr) : List RecordId :=
  (match s.termEnd x with
   | some e => .release e :: s.viewReads e
   | none => []) ++ if s.termSwitch x then [.switch] else []

/-- The records read to judge an expression and to command its lever's output from it: its own, those of
its conditions and of its automatic term, and the lever's with the collar set (R140). -/
def State.exprReads (s : State) (x : ExprNo) : List RecordId :=
  match s.cfg.exprs[x.val]? with
  | some e =>
    .fixed (.expr x) :: .collars :: leverReads e.lever ++ e.terms.flatten.flatMap s.condReads
      ++ s.termReads e
  | none => []

/-- An event has changed a record that an expression's automatic term reads. -/
def termMoved (s0 s : State) (x : Expr) : Bool :=
  poisonMoved s0 s (s.termReads x)
    || ((s.termEnd x).any fun e => endMoved s0 s e)
    || (s.termSwitch x && s.switch.state != s0.switch.state)

/-- An event has changed a record that an expression names, or its own poison. -/
def exprMoved (s0 s : State) (x : ExprNo) : Bool :=
  match s.cfg.exprs[x.val]? with
  | some e =>
    poisonMoved s0 s [.fixed (.expr x)] || e.terms.flatten.any (condMoved s0 s) || termMoved s0 s e
  | none => false

/-- The records the evaluator reads at an event: for every expression at a frame scan and at a RESTART
(R54), and at another event for each that names a record the event has changed (R52). -/
def State.judgeReads (s s0 : State) (all : Bool) : List RecordId :=
  if s.judgesNow then
    (allExprs.filter fun x => all || exprMoved s0 s x).flatMap s.exprReads
  else []

/-! ## The section unit's reads (R106, R108, R98, R133, R134) -/

/-- The records read at an end for its arrival proof, where a track of its list has changed since `base`
(R108). -/
def State.proofReads (s base : State) (e : EndNo) (c : EndCfg) : List RecordId :=
  if (s.view e).proof.isSome && c.proving.any (trackMoved base s) then
    s.viewReads e ++ c.proving.flatMap s.trackReads
  else []

/-- The records read at an end for automatic occupation, where the rear end's entry track has changed since
`base` (R106); an occupation toward this end reads the first proving track as well (R108). -/
def State.occupyReads (s base : State) (e : EndNo) (c : EndCfg) : List RecordId :=
  match c.rearEntry (s.view e).dir with
  | some t =>
    if c.owner && trackMoved base s t then
      s.viewReads e ++ s.trackReads t
        ++ if s.occupiedSince base e c && (s.view e).dir == c.toHere then s.firstReads c else []
    else []
  | none => []

/-- The records read at an end for its release and the demands, where the view or the release has changed
since `base` (R98, R128). -/
def State.standReads (s base : State) (e : EndNo) : List RecordId :=
  if endMoved base s e then
    s.viewReads e ++ releaseReads e ++ s.pairReads e ++ (s.throughRearOf e).toList.map .demand
  else []

/-- The records that the section unit reads at an end for the tracks that an event has changed since `base`. -/
def State.endFollowReads (s base : State) (e : EndNo) : List RecordId :=
  match s.endCfg e with
  | none => []
  | some c => s.proofReads base e c ++ s.occupyReads base e c

/-- The section unit's reads of tracks and views at every end. -/
def State.followReads (s base : State) : List RecordId :=
  if s.working then allEnds.flatMap (s.endFollowReads base) else []

/-- The section unit's reads of views, releases and demands at every end. -/
def State.viewsReads (s base : State) : List RecordId :=
  if s.working then allEnds.flatMap (s.standReads base) else []

/-- The events at which the switch state is judged: a change of a pair end's view or release, and a change
of the switch state itself (R133, R134), since `base`. -/
def State.switchAsked (s base : State) : Bool :=
  s.switch.state != base.switch.state ||
    s.pairEnds.any fun e => s.view e != base.view e || s.release e != base.release e

/-- The records that the judgement of the switch state reads: the switch record, the through pairs and the pair
ends' views and releases (R133, R134). -/
def State.switchJudgeReads (s base : State) : List RecordId :=
  if s.working && s.switchAsked base then
    .switch :: s.pairStatics ++ s.pairEnds.flatMap fun e => .release e :: s.viewReads e
  else []

/-- The key records that the bell unit reads as the switch state returns to IN, to free those that are IGNORED
(R61). -/
def State.freedReads (s : State) : List RecordId :=
  if s.working && (s.pairClosed || s.switchInDone) then s.pairEnds.map .key else []

/-! ## The offers that the changes call for (R14, R85) -/

/-- A change of the fields a SECTION STATE carries calls for an offer; the appearance of an answer
echo does, its end does not (R85). -/
def State.stateChanged (s s0 : State) (e : EndNo) : Bool :=
  match s.endCfg e with
  | none => false
  | some c =>
    s.sectionFields e c none != s0.sectionFields e c none ||
      ((s.lineEnd e).echo.isSome && (s.lineEnd e).echo != (s0.lineEnd e).echo)

/-- The transmit queue was found damaged in the event and re-initialised (R80). -/
def State.queueLost (s s0 : State) : Bool := s0.isDamaged .queue && !s.isDamaged .queue

/-- The owned ends whose SECTION STATE is to be offered at the close of an event that began at `s0`. -/
def State.statesDue (s s0 : State) : List EndNo :=
  s.ownedEnds.filter fun e => s.queueLost s0 || s.stateChanged s0 e

/-- An END REPORT is to be offered at the close of the event. -/
def State.reportDue (s s0 : State) : Bool := s.queueLost s0 || s.report != s0.report

/-- The records that the telegrams due are built from. -/
def State.buildReads (s s0 : State) : List RecordId :=
  if s.working then
    (s.statesDue s0).flatMap s.stateReads ++ if s.reportDue s0 then s.reportReads else []
  else []

/-- The offers that the changes of an event call for (R14, R80, R85). Where one event calls for several, the
SECTION STATEs are offered in order of section end and the END REPORT after them: no rule says which comes first
(DESIGN CHOICE, log entry 60). -/
def State.offerChanges (s s0 : State) : State :=
  let t := s.each (s.statesDue s0) fun s e => s.offerSectionState e
  if s.reportDue s0 then t.offerEndReport else t

/-! ## The close -/

/-- The records read for the tracks that have changed since `base` are verified. R140 names no operation for the
section unit's reads at a change of a track: it is SECTION UPDATE (DESIGN CHOICE, log entry 44). -/
def State.followVerify (s base : State) : State := s.verify .sectionUpdate (s.followReads base)

/-- What the section unit makes of the settlements and the tracks that have changed since `base`. A channel that
its reads find damaged becomes OCCUPIED and is a change of its own (R18), for which the other tracks of the
proofs that name it are read in their turn: twice, since damage found by both is LOCKDOWN. -/
def State.answerChanges (s base : State) : State :=
  let s := (s.followVerify base).followVerify base
  if s.working then (s.settledReactions base).trackReactions base else s

/-- The releases and demands follow the views that have changed since `base`, the records read for it verified
(R98, R128). -/
def State.followChanges (s base : State) : State :=
  let s := s.verify .sectionUpdate (s.viewsReads base)
  if s.working then s.followViews else s

/-- The reads of the judgement of the switch state, the keys that a return to IN frees among them. -/
def State.switchVerify (s base : State) : State :=
  let s := s.verify .sectionUpdate (s.switchJudgeReads base)
  s.verify .telegramBuild s.freedReads

/-- Releases, demands, switching and proving judged on what has changed since `base`, the records they read
verified (R98, R128, R133, R134, R144). -/
def State.judgeStation (s base : State) : State :=
  let s := ((s.followChanges base).switchVerify base).provingVerify base
  (if s.working then s.judgeSwitch else s).judgeProving base

/-- The records found damaged by the evaluator's reads, as the close gathers them. -/
abbrev Closing := State × List RecordId

/-- Rounds of the close of an event that began at `s0`, after changes since `base`: the blocks' answers,
then the evaluator's reads and the reads of the telegrams due. Another round follows for as long as one
finds damage: a first urgent fault changes what is read, and a second one is LOCKDOWN, in which nothing
more is read for use, so that three suffice. -/
def closeRounds (s0 : State) (all : Bool) : Nat → State → State → List RecordId → Closing
  | 0, s, _, found => (s, found)
  | n + 1, s, base, found =>
    let t := s.answerChanges base
    let v := t.judgeStation base
    let reads := v.judgeReads s0 all
    let u := v.verify .lockEvaluation reads
    let r := u.verify .telegramBuild (u.buildReads s0)
    if r.integrity.damaged == s.integrity.damaged then (r, found ++ v.hits reads)
    else closeRounds s0 all n r t (found ++ v.hits reads)

/-- The close of an event that began at `s0`: the rounds, the evaluator with the outputs, the offers; `all`
says that the lanes judge every expression at it, and `found` are the records that the frame unit's reads of
the event found damaged. -/
def State.closeEvent (s s0 : State) (all : Bool) (found : List RecordId) : State :=
  let r := closeRounds s0 all 3 s s0 found
  (r.1.evaluate r.2).offerChanges s0

/-- The close of an event other than a frame scan. -/
def State.react (s s0 : State) : State := s.closeEvent s0 false []

/-- An event that closes nothing unless it finds damage (R137). -/
def State.quietly (s : State) (op : Operation) (reads : List RecordId) (act : State → State) : State :=
  s.guarded op reads act State.react

end Sys2Proof.Machine
end

