-- ==== Sys2Proof/Machine/BellCodes.lean ====
section
/-! DEFINITION. The bell unit's codes (04_bell_working.md): matching as a read for use, sending,
receiving and queueing for ringing, the bell key's presses and releases. -/

namespace Sys2Proof.Machine

open Sys2Proof

/-! ## Matching as a read for use (R63) -/

/-- The code table entries are verified as matching tries them, in order, to the one that ends it: one
that matches, or one that is poisoned or found damaged by the read. -/
def State.tryVerify (s : State) (op : Operation) (groups : List Nat) : List CodeNo → State
  | [] => s
  | k :: ks =>
    let s := s.verify op [.fixed (.code k)]
    let ends := s.badStatic (.code k) ||
      match look s.cfg.codes k with
      | some c => patternMatches c.pattern groups
      | none => false
    if ends then s else s.tryVerify op groups ks

/-- Matching's reads; none for an overlong code. -/
def State.matchVerify (s : State) (op : Operation) (groups : List Nat) (overlong : Bool) : State :=
  if overlong then s else s.tryVerify op groups allCodes

/-! ## Sending (R64, R65, R68, R71) -/

/-- The records that the section unit reads for the effect of a code: an obstruction's view (R68, R114, R115). -/
def State.effectReads (s : State) (e : EndNo) (m : Meaning) : List RecordId :=
  match m with
  | .obstruction => s.viewReads e
  | _ => []

/-- The sending-end effects of a meaning (R65, R68). -/
def State.sendingEffects (s : State) (e : EndNo) (c : EndCfg) (m : Meaning) : State :=
  match m with
  | .offer k =>
    if c.canRear then s.updBell e fun b => { b with outstanding := some ⟨k, s.clock⟩ } else s
  | .obstruction => s.obstruct e
  | _ => s

/-- The records that a BELL of a code is built from are verified, and those of its effect where the queue takes
it. -/
def State.codeVerify (s : State) (e : EndNo) (m : Meaning) : State :=
  let s := s.verify .telegramBuild (.fixed (.sectionEnd e) :: placeReads)
  s.verify .sectionUpdate (if s.takesAt e then s.effectReads e m else [])

/-- A code with its meaning is offered to the line unit as a BELL, the records it reads verified: sent, with its
effects and entry, or lost with BELL LOST (R64, R71). Where these reads bring LOCKDOWN it is neither (DESIGN
CHOICE, log entry 51). -/
def State.sendMeant (s : State) (e : EndNo) (c : EndCfg) (groups : List Nat) (overlong relayed : Bool)
    (m : Meaning) : State :=
  let s := s.codeVerify e m
  if !s.working then s
  else if s.takesAt e then
    let s := s.enqueue ⟨c.neighbour.val, .bell ⟨c.section_, overlong, relayed, groups⟩, some e⟩
    (s.sendingEffects e c m).register
      (bellEntry c (if relayed then .bellRelayed else .bellSent) groups overlong m)
  else (s.notify .bellLost (endSubject e)).updBell e fun b => { b with lost := true }

/-- A code is matched and offered to the line unit (R63, R64). -/
def State.sendCode (s : State) (e : EndNo) (groups : List Nat) (overlong relayed : Bool) : State :=
  match s.endCfg e with
  | none => s
  | some c =>
    let s := s.matchVerify .telegramBuild groups overlong
    s.sendMeant e c groups overlong relayed (s.meaning groups overlong)

/-! ## Receiving (R66, R67, R69) -/

/-- A code joins the replay queue, or is not rung (R69, R70). -/
def State.ring (s : State) (e : EndNo) (groups : List Nat) : State :=
  let q := s.replay
  if q.codes.length < Config.replayPlaces then
    { s with replay := { q with
        codes := q.codes ++ [⟨e, groups⟩]
        started := if q.codes.isEmpty then 0 else q.started
        nextDue := if q.codes.isEmpty then max s.clock q.pauseUntil else q.nextDue } }
  else s.notify .bellNotRung (endSubject e)

/-- The receiving-end effects of a meaning (R67, R68). -/
def State.receivingEffects (s : State) (e : EndNo) (c : EndCfg) (m : Meaning) : State :=
  match m with
  | .offer k =>
    if c.canAccept then
      (s.updBell e fun b => { b with offer := some ⟨k, s.clock⟩ }).notify .offer (endSubject e)
    else s
  | .obstruction => s.obstruct e
  | _ => s

/-- A BELL within the limits is acted upon: its code queued, its effects, its entry, and the relay where
the station is switched out (R66, R71), which it is or not as the BELL's own reads leave it (DESIGN CHOICE, log
entry 51). -/
def State.useCode (s : State) (e : EndNo) (c : EndCfg) (m : BellMsg) : State :=
  let meaning := s.meaning m.groups m.overlong
  let s := (s.ring e m.groups).receivingEffects e c meaning
  let s := s.register
    { bellEntry c .bellReceived m.groups m.overlong meaning with relayed := m.relayed }
  match s.partner e with
  | some p => if s.switchedOut then s.sendCode p m.groups m.overlong true else s
  | none => s

/-- The records read for a BELL taken are verified, those of the matching first (R63); the through pair tells where
a relay goes (R71). -/
def State.bellVerify (s : State) (e : EndNo) (m : BellMsg) : State :=
  let s := s.matchVerify .sectionUpdate m.groups m.overlong
  s.verify .sectionUpdate
    ([.replay, .fixed (.sectionEnd e), .offer e, .switch] ++ s.pairReads e
      ++ s.effectReads e (s.meaning m.groups m.overlong))

/-- A BELL taken on a section end, in the order of R66: the limits, the matching, and then the rest. Damage that
its own reads find is taken before the BELL, which is dropped unregistered where they bring LOCKDOWN: no rule
orders the BELL and the fault (DESIGN CHOICE, log entry 51). -/
def State.receiveCode (s : State) (e : EndNo) (c : EndCfg) (m : BellMsg) : State :=
  if !codeFits m.groups then s
  else
    let s := s.bellVerify e m
    if s.working then s.useCode e c m else s

/-! ## The bell key (R57 to R60) -/

/-- A code ends: the record goes to IDLE and the code is handed over for sending (R58). -/
def State.endCode (s : State) (e : EndNo) : State :=
  let t := s.updBell e fun b => { b with phase := .idle, code := none }
  match (s.bell e).code with
  | some a => t.sendCode e a.groups a.overlong false
  | none => t

/-- A beat added to a group list under the limits of R59; none where it would pass them. -/
def addBeat (groups : List Nat) (newGroup : Bool) : Option (List Nat) :=
  if 16 ≤ groups.sum then none
  else if newGroup then if groups.length < 5 then some (groups ++ [1]) else none
  else
    match groups.getLast? with
    | some g => if g < 9 then some (groups.dropLast ++ [g + 1]) else none
    | none => none

/-- A beat placed in the code in assembly (R57, R59): in the last group where it was pressed less than Gsep after
the last release, however long its closure, as the table of R57 has it. Where that closure outlasts Gend, R58 has
the beat join as a new group (DESIGN CHOICE, log entry 63). -/
def placeBeat (code : Option Assembly) (press release gsep : Nat) : Assembly :=
  match code with
  | none => ⟨[1], false, release⟩
  | some a =>
    if a.overlong then { a with lastRelease := release }
    else
      match addBeat a.groups (a.lastRelease + gsep ≤ press) with
      | some gs => ⟨gs, false, release⟩
      | none => ⟨a.groups, true, release⟩

/-- Gend has passed since the code's last beat release. -/
def State.gendPassed (s : State) (e : EndNo) : Bool :=
  match (s.bell e).code with
  | some a => a.lastRelease + Config.ms s.gend ≤ s.clock
  | none => false

/-- A stuck key (R60): the code discarded, HOLD OFF, STUCK KEY. -/
def State.stickKey (s : State) (e : EndNo) (openSince : Option Nat) : State :=
  (s.updBell e fun b => { b with phase := .holdOff openSince, code := none }).contained .stuckKey
    (endSubject e)

/-- The bell lost flag is cleared by a press (R64). -/
def State.clearLost (s : State) (e : EndNo) : State := s.updBell e fun b => { b with lost := false }

/-- A press is taken (R57, R60): a code whose Gend has passed is handed over first (R58), and the press,
acted on after it, clears the bell lost flag in any phase (R64). -/
def State.keyPress (s : State) (e : EndNo) : State :=
  match (s.bell e).phase with
  | .idle => (s.clearLost e).updBell e fun b => { b with phase := .pressed s.clock }
  | .gap =>
    let t := if s.gendPassed e then s.endCode e else s
    if t.working then (t.clearLost e).updBell e fun b => { b with phase := .pressed s.clock } else t
  | .holdOff _ => (s.clearLost e).updBell e fun b => { b with phase := .holdOff none }
  | .pressed _ | .ignored => s.clearLost e

/-- A release is taken (R57, R58, R60). -/
def State.keyRelease (s : State) (e : EndNo) : State :=
  match (s.bell e).phase with
  | .pressed t =>
    if s.clock < t + Config.minBeat then
      if s.gendPassed e then s.endCode e
      else s.updBell e fun b => { b with phase := if b.code.isSome then .gap else .idle }
    else if s.clock < t + Config.stuckClosure then
      s.updBell e fun b =>
        { b with phase := .gap, code := some (placeBeat b.code t s.clock (Config.ms s.gsep)) }
    else s.stickKey e (some s.clock)
  | .holdOff _ => s.updBell e fun b => { b with phase := .holdOff (some s.clock) }
  | .idle | .gap | .ignored => s

/-- The bell unit acts on a taken change of a key. -/
def State.keyAct (s : State) (e : EndNo) (closed : Bool) : State :=
  if s.working && (s.endCfg e).isSome then
    if closed then s.keyPress e else s.keyRelease e
  else s

/-- The records the bell unit reads for a code in assembly or for a closure: the key record, and the STATION
CONFIGURATION for Gsep and Gend (R57, R73, R139). The operation is TELEGRAM BUILD (DESIGN CHOICE, log entry
44). -/
def gapReads (e : EndNo) : List RecordId := [.key e, .fixed .station]

/-- The records the bell unit reads for a change of a key. -/
def State.pressReads (s : State) (e : EndNo) : List RecordId :=
  match (s.bell e).phase with
  | .gap | .pressed _ => gapReads e
  | .idle | .holdOff _ | .ignored => [.key e]

/-- A taken change of a bell key is handed to the bell unit, which acts on it while bell working is
active (R56), the records it reads verified (R73). -/
def State.keyChange (s : State) (e : EndNo) (closed : Bool) : State :=
  State.keyAct
    (if s.working && (s.endCfg e).isSome then s.verify .telegramBuild (s.pressReads e) else s)
    e closed

end Sys2Proof.Machine
end

