-- ==== Sys2Proof/Machine/Commutator.lean ====
section
/-! DEFINITION. What the signalman's hand moves at the section unit: the commutators and their moves
(sections 6.5 to 6.12), and the switching key (sections 7.2 to 7.5). -/

namespace Sys2Proof.Machine

open Sys2Proof

/-! ## The meanings of a move (R99) -/

/-- What a move of a commutator asks for. -/
inductive Move where
  | acceptance | gesture | occupation | clearObstruction | opening | cancellation | arrived
  deriving DecidableEq, Repr

/-- The first line of R99's table that fits, if any. -/
def moveMeaning (c : EndCfg) (v : View) (dest : CommPos) : Option Move :=
  match dest with
  | .clear => some .acceptance
  | .occupied =>
    if v.state == .closed && c.owner then some .gesture
    else if v.shows .clear c.toHere then some .occupation
    else none
  | .blocked =>
    if c.owner && v.obstruction then some .clearObstruction
    else if v.state == .closed && c.owner && v.gesture then some .opening
    else if v.shows .clear c.toHere then some .cancellation
    else if v.shows .occupied c.toHere then some .arrived
    else none

/-- The refusal of a meaningful move by the service state, the poison of the end's static record, or
the switch state (R99). -/
def State.moveBarred (s : State) (e : EndNo) (m : Move) : Option Reason :=
  let byState : Option Reason :=
    match s.service, m with
    | .proving, .gesture | .proving, .opening | .proving, .cancellation
    | .proving, .clearObstruction => none
    | .proving, _ => some .notInService
    | .restrictive, .cancellation | .restrictive, .clearObstruction => none
    | .restrictive, _ => some .fault
    | _, _ => none
  match byState with
  | some r => some r
  | none =>
    if s.badStatic (.sectionEnd e) then some .fault
    else if s.switchedOut && (s.pairOf e).isSome then some .switched
    else none

/-! ## The moves -/

/-- A REQUEST made for a move of the commutator; refused LINE BUSY where the queue has no place. -/
def State.requestMove (s : State) (e : EndNo) (c : EndCfg) (k : ReqKind) (cls : Nat) : State :=
  s.makeRequest e c k cls .commutator fun s => s.refuseMove e c k.moveTo .lineBusy

/-- Acceptance judged on the records as they stand (R102, R103). -/
def State.judgeAccept (s : State) (e : EndNo) (c : EndCfg) : State :=
  if c.owner then
    match s.ownerChecks e c true with
    | some r => s.refuseMove e c .clear r
    | none => s.takeAcceptance e c
  else
    match s.farChecks e c true with
    | some r => s.refuseMove e c .clear r
    | none => s.requestMove e c .accept (s.offerClass e)

/-- Acceptance (R102, R103), the records it reads verified. -/
def State.moveAccept (s : State) (e : EndNo) (c : EndCfg) : State :=
  if !c.canAccept then s.refuseMove e c .clear .notBlocked
  else
    let s := s.verify .sectionUpdate (s.acceptReads e c ++ leverReadsOpt c.homeLever)
    if s.working then s.judgeAccept e c else s

/-- The owner's section record becomes OCCUPIED by a move, the first proving track read for the arrival
proof (R107, R108). -/
def State.occupyHere (s : State) (e : EndNo) (c : EndCfg) : State :=
  let s := s.verify .sectionUpdate (s.firstReads c)
  if s.working then s.changeView e c (s.view e).toOccupied false else s

/-- Manual occupation (R107). -/
def State.moveOccupy (s : State) (e : EndNo) (c : EndCfg) : State :=
  let v := s.view e
  match firstFailing [(c.owner || (s.lineEnd e).fresh, .farSilent),
      (v.pending.isNone, .requestPending)] with
  | some r => s.refuseMove e c .occupied r
  | none =>
    if c.owner then s.occupyHere e c else s.requestMove e c .occupy 0

/-- Arrived judged on the records as they stand (R110). -/
def State.judgeArrived (s : State) (e : EndNo) (c : EndCfg) : State :=
  let v := s.view e
  match firstFailing [(c.owner || (s.lineEnd e).fresh, .farSilent),
      ((v.proof.map (·.complete)).getD false, .notProven), (s.homeNormal c, .homeLever),
      (v.pending.isNone, .requestPending)] with
  | some r => s.refuseMove e c .blocked r
  | none =>
    if c.owner then s.changeView e c v.toBlocked false
    else (s.updProof e fun p => { p with auto := false }).requestMove e c .arrived 0

/-- Arrived (R110), the home lever's record verified. -/
def State.moveArrived (s : State) (e : EndNo) (c : EndCfg) : State :=
  let s := s.verify .sectionUpdate (leverReadsOpt c.homeLever)
  if s.working then s.judgeArrived e c else s

/-- Cancellation (R111). -/
def State.moveCancel (s : State) (e : EndNo) (c : EndCfg) : State :=
  if (s.view e).pending.isSome then s.refuseMove e c .blocked .requestPending
  else s.requestMove e c .cancel 0

/-- The refusal of the opening (R117): the digests, the neighbour's END REPORT, and RESTRICTIVE. -/
def State.openingRefusal (s : State) (e : EndNo) (c : EndCfg) : Option Reason :=
  let v := s.view e
  firstFailing [(s.service != .restrictive && v.digest != .no, .fault),
    (v.digest == .yes && (s.stationRec c.neighbour).fresh, .farSilent)]

/-- The opening is refused; DIGEST MISMATCH is raised again where the match is NO (R117). -/
def State.refuseOpening (s : State) (e : EndNo) (c : EndCfg) (r : Reason) : State :=
  let t := if (s.view e).digest == .no then s.notify .digestMismatch (endSubject e) else s
  t.refuseMove e c .blocked r

/-- The neighbour's station record is read for an opening (R117). -/
def State.openingVerify (s : State) (c : EndCfg) : State :=
  s.verify .sectionUpdate [.stationRec c.neighbour]

/-- Opening (R117): the gesture ends either way. -/
def State.moveOpen (s : State) (e : EndNo) (c : EndCfg) : State :=
  let s := s.openingVerify c
  if !s.working then s
  else
    match s.openingRefusal e c with
    | some r => (s.updView e fun v => { v with gesture := false }).refuseOpening e c r
    | none => s.changeView e c (s.view e).toBlocked false

/-- The gesture is ended by its move to BLOCKED, at which the obstruction is cleared as well (R114, R117):
the opening follows or is refused. OBSTRUCTION CLEARED is registered before the REFUSED of an opening refused: no
rule orders the two (DESIGN CHOICE, log entry 8). -/
def State.clearAndOpen (s : State) (e : EndNo) (c : EndCfg) : State :=
  let v := { s.view e with obstruction := false, gesture := false }
  match s.openingRefusal e c with
  | some r => (s.changeView e c v false).refuseOpening e c r
  | none => s.changeView e c v.toBlocked false

/-- Obstruction cleared (R114), with the gesture's end where it was begun (R117). -/
def State.moveClearObstruction (s : State) (e : EndNo) (c : EndCfg) : State :=
  let v := s.view e
  let v' := { v with obstruction := false, gesture := false }
  if v.state == .closed then
    if v.gesture then
      let s := s.openingVerify c
      if s.working then s.clearAndOpen e c else s
    else s.changeView e c v' false
  else s.changeView e c v'.toBlocked false

/-- A meaningful move is carried out. -/
def State.makeMove (s : State) (e : EndNo) (c : EndCfg) (m : Move) : State :=
  let calm := s.updView e fun v => { v with gesture := false }
  match m with
  | .acceptance => calm.moveAccept e c
  | .gesture => s.updView e fun v => { v with gesture := true }
  | .occupation => calm.moveOccupy e c
  | .clearObstruction => s.moveClearObstruction e c
  | .opening => s.moveOpen e c
  | .cancellation => calm.moveCancel e c
  | .arrived => calm.moveArrived e c

/-- The mark of a refused move at a move of the commutator to a position (R105). -/
def View.moved (v : View) (dest : CommPos) : View :=
  match v.refused with
  | some .blockedMove => { v with refused := none }
  | some .awayMove => if dest == .blocked then { v with refused := none } else v
  | none => v

/-- A move of an end's commutator, judged at once by its new position and the view (R99). One that fits no line of
R99's table does nothing whatever the switch state, where R126 has every move refused SWITCHED (DESIGN CHOICE, log
entry 64). -/
def State.moveComm (s : State) (e : EndNo) (c : EndCfg) (dest : CommPos) : State :=
  let s := s.updView e fun v => v.moved dest
  match moveMeaning c (s.view e) dest with
  | none => s
  | some m =>
    match s.moveBarred e m with
    | some r =>
      (if m == .gesture then s else s.updView e fun v => { v with gesture := false }).refuseMove
        e c dest r
    | none => s.makeMove e c m

/-! ## The contacts (R99) -/

/-- The position of the one contact taken closed; none where no contact or several are. -/
def Commutator.contact (k : Commutator) : Option CommPos :=
  match k.blockedIn.closed, k.clearIn.closed, k.occupiedIn.closed with
  | true, false, false => some .blocked
  | false, true, false => some .clear
  | false, false, true => some .occupied
  | _, _, _ => none

/-- Two or more contacts are taken closed. -/
def Commutator.conflict (k : Commutator) : Bool :=
  (k.blockedIn.closed && k.clearIn.closed) || (k.blockedIn.closed && k.occupiedIn.closed)
    || (k.clearIn.closed && k.occupiedIn.closed)

/-- An end has a commutator: every end before a configuration tells, then as configured. -/
def State.fitted (s : State) (e : EndNo) : Bool :=
  !s.hasConfig || ((s.endCfg e).map (·.commutator)).getD false

/-- The position taken from the contacts without a move. -/
def State.readComm (s : State) (e : EndNo) : State :=
  if s.fitted e then s.updComm e fun k => { k with pos := k.contact.getD k.pos } else s

/-- The contacts as the section unit finds them: the fault set and reported, or cleared (R99). -/
def State.judgeConflict (s : State) (e : EndNo) : State :=
  let k := s.comm e
  if !s.fitted e then s
  else if k.conflict then
    if k.fault then s
    else (s.updComm e fun k => { k with fault := true }).contained .commutatorFault (endSubject e)
  else if k.contact.isSome then s.updComm e fun k => { k with fault := false }
  else s

/-- A move is acted upon, the records it is judged by verified (R99, R137). Damage found by these reads is taken
before the move is judged (DESIGN CHOICE, log entry 73). -/
def State.commMoved (s : State) (e : EndNo) : State :=
  match s.endCfg e with
  | some c =>
    let s := s.verify .sectionUpdate (.switch :: s.pairReads e ++ s.viewReads e)
    if s.working then s.moveComm e c (s.comm e).pos else s
  | none => s

/-- The end's static record is verified by the read that tells whether it has a commutator, once records exist
(R137). -/
def State.fittedVerify (s : State) (e : EndNo) : State :=
  s.verify .sectionUpdate (if s.live && (s.endCfg e).isSome then [.fixed (.sectionEnd e)] else [])

/-- A taken change of an end's commutator contacts is handed to the section unit: held in LOCKDOWN; a
move while the unit takes events (R99, R122). -/
def State.commChange (s : State) (e : EndNo) : State :=
  let s := if s.service == .lockdown then s else s.fittedVerify e
  if s.service == .lockdown then s
  else if !s.working then s.readComm e
  else
    let was := (s.comm e).pos
    let s := (s.judgeConflict e).readComm e
    if (s.comm e).pos == was then s else s.commMoved e

/-- Each commutator as the section unit begins to work (R99, R168). -/
def State.beginComms (s : State) : State :=
  s.each allEnds fun s e => (s.judgeConflict e).readComm e

/-! ## The switching key (R125, R126, R133) -/

/-- The ends of a through pair. -/
def PairCfg.ends (c : PairCfg) : List EndNo := [c.endA, c.endB]

/-- One check of R126 as a pair fails it. -/
def State.pairFails (s : State) (p : PairNo) (c : PairCfg) (r : Reason) : Bool :=
  let any (f : EndNo → Bool) := c.ends.any f
  match r with
  | .notInService => s.service != .inService
  | .fault => s.badStatic (.pair p) || any fun e => s.badStatic (.sectionEnd e)
  | .notBlocked => any fun e => (s.view e).state != .blocked
  | .offerOutstanding => any fun e => (s.bell e).outstanding.isSome
  | .requestPending => any fun e => (s.view e).pending.isSome
  | .releaseHeld => any fun e => (s.release e).state != .none
  | .throughLever => c.levers.any fun l => !s.atReverse l
  | .farSilent => any fun e =>
      match s.endCfg e with
      | some k => s.staleView e k
      | none => true
  | _ => false

/-- The checks of R126, in order. -/
def switchChecks : List Reason :=
  [.notInService, .fault, .notBlocked, .offerOutstanding, .requestPending, .releaseHeld,
   .throughLever, .farSilent]

/-- The first pair that fails a check of R126. -/
def State.failingPair (s : State) (r : Reason) : Option PairNo :=
  allPairs.find? fun p =>
    match s.pairCfg p with
    | some c => s.pairFails p c r
    | none => false

/-- The first check of R126 that fails, with the first pair that fails it. -/
def State.switchRefusal (s : State) : Option (Reason × PairNo) :=
  switchChecks.findSome? fun r => (s.failingPair r).map fun p => (r, p)

/-- The records the checks of R126 read: the pairs, and the views, offers outstanding, releases, levers and
station records of their ends. -/
def State.switchReads (s : State) : List RecordId :=
  allPairs.flatMap fun p =>
    match s.pairCfg p with
    | some c =>
      .fixed (.pair p) :: c.levers.flatMap leverReads ++ c.ends.flatMap fun e =>
        .outstanding e :: .release e :: s.viewReads e ++
          match s.endCfg e with
          | some k => [.stationRec k.neighbour]
          | none => []
    | none => []

/-- The request to switch out judged on the records as they stand (R126). -/
def State.judgeOut (s : State) : State :=
  match s.switchRefusal with
  | some (r, p) =>
    State.notify
      ((s.updSwitch fun w => { w with mark := true, refusal := some r }).register
        { EventInfo.plain .refused with reason := some r })
      .switchRefused (p.val + 1)
  | none => s.goOut.updSwitch fun w => { w with refusal := none }

/-- A turn of the key to OUT while IN is a request to switch out (R126). Damage that its own reads find is taken
before its checks: after a first urgent fault it is refused NOT IN SERVICE (DESIGN CHOICE, log entry 73). -/
def State.requestOut (s : State) : State :=
  let s := s.verify .sectionUpdate s.switchReads
  if s.working then s.judgeOut else s

/-- A WAITING demand with no retry time is attempted at a return to OUT (R133). -/
def State.attemptWaiting (s : State) (e : EndNo) : State :=
  match s.demand e with
  | some d => if d.state == .waiting && d.retryAt.isNone then s.attemptAcceptance e else s
  | none => s

/-- A return to OUT from IN PENDING (R133). -/
def State.resumeOut (s : State) : State :=
  (s.goOut.verify .sectionUpdate (allEnds.map .demand)).each allEnds fun s e => s.attemptWaiting e

/-- A turn of the key judged by the switch state (R125, R126, R133). -/
def State.keyActed (s : State) (out : Bool) : State :=
  if !s.working then s
  else if out then
    match s.switch.state with
    | .inn => s.requestOut
    | .inPending => s.resumeOut
    | .out => s
  else
    s.updSwitch fun w =>
      { w with mark := false, state := if w.state == .out then .inPending else w.state }

/-- A taken turn of the key is handed to the section unit, the switch record and the through pairs verified
(R125), damage found there taken before the turn is judged (DESIGN CHOICE, log entry 73). -/
def State.keyTurn (s : State) (out : Bool) : State :=
  if !s.working || !s.hasPairs then s
  else (s.verify .sectionUpdate (.switch :: s.pairStatics)).keyActed out

end Sys2Proof.Machine
end

