-- ==== Sys2Proof/Machine/Frame.lean ====
section
/-! DEFINITION. The frame unit's events (02_the_lever_frame.md): the scan with its debounce and
readback, levers and strokes, timers, and the lane supervision that the scan drives (R53). -/

namespace Sys2Proof.Machine

open Sys2Proof

/-! ## Debounce (R19) -/

/-- One scan's reading of an input: three agreeing scans take a change (R19). -/
def Input.read (i : Input) (v : Bool) : Input :=
  if v == i.closed then { i with run := 0 }
  else if i.run + 1 < Config.agreeingScans then { i with run := i.run + 1 }
  else ⟨v, 0⟩

/-- A value taken at once, without waiting for agreement (R19, R22). -/
def Input.takenAs (v : Bool) : Input := ⟨v, 0⟩

/-! ## Levers (R21 to R24) -/

/-- The position of a lever from its two taken contacts (R21). -/
def positionOf (n r : Bool) : LeverPos :=
  match n, r with
  | true, false => .normal
  | false, true => .reverse
  | false, false => .mid
  | true, true => .unknown

/-- The end position a position is, if it is one. -/
def LeverPos.asEnd : LeverPos → Option LeverEnd
  | .normal => some .normal
  | .reverse => some .reverse
  | _ => none

/-- A lever drives a control output: it is a signal lever. -/
def LeverCfg.isSignal (c : LeverCfg) : Bool := c.control.isSome

/-- How a change of position ends a stroke, if it ends one: the end left, of a stroke present, or of
one begun and completed at the same scan (R23). -/
def strokeLeft (v : Lever) (new : LeverPos) : Option LeverEnd :=
  match v.stroke with
  | some k => if new == .mid then none else some k.left
  | none =>
    match v.position.asEnd, new.asEnd with
    | some a, some b => if a == b then none else some a
    | _, _ => none

/-- The stroke after a change of position: begun on leaving an end position for MID, its hold set if
the lock was commanded energized (R23, R27). -/
def strokeAfter (v : Lever) (new : LeverPos) (lockOn : Bool) : Option Stroke :=
  match v.position.asEnd, new with
  | some a, .mid => some ⟨a, lockOn⟩
  | _, _ => none

/-- The replacement latch after a change of position: cleared at NORMAL; set on REVERSE other than by
the end of a stroke (R24, R31). -/
def latchAfter (v : Lever) (c : LeverCfg) (new : LeverPos) : Bool :=
  match new with
  | .normal => false
  | .reverse => v.latch || (c.isSignal && (strokeLeft v new).isNone)
  | _ => v.latch

/-- The lock of a lever is commanded energized as the outputs now stand (R27). -/
def State.lockOn (s : State) (l : LeverNo) : Bool :=
  match (s.leverCfg l).lockOutput with
  | some n => (s.output n).command
  | none => false

/-- A timer starts with its full duration where it is IDLE and its approach track is not known CLEAR, unless
its static record is poisoned (R33, R139). -/
def State.triggerTimer (s : State) (t : TimerNo) (c : TimerCfg) : State :=
  if (look s.timers t).isNone && !s.badStatic (.timer t) && !s.knownClear c.approach then
    { s with timers := upd s.timers t fun _ => some (s.clock + Config.secs c.duration) }
  else s

/-- Each timer that a lever triggers reads its approach track, the records verified by the read, and may
start (R33). R140 names no operation for the read of an approach track: it is LOCK EVALUATION, as the timer's
own (DESIGN CHOICE, log entry 44). -/
def State.triggerTimers (s : State) (l : LeverNo) : State :=
  s.each allTimers fun s t =>
    match look s.cfg.timers t with
    | none => s
    | some c =>
      if c.trigger == l then
        (s.verify .lockEvaluation ([.fixed (.timer t), .timer t] ++ s.trackReads c.approach)).triggerTimer
          t c
      else s

/-- An AVAILABLE release is consumed while the section unit takes events (R97). -/
def State.consumeAvailable (s : State) (e : EndNo) : State :=
  if s.working && (s.release e).state == .available then s.consume e (s.release e).acc else s

/-- The records read for the latches that a consumption clears: the pair and the switch record, and the levers
of the pair while the station is switched out (R32). R140 names no operation for the reads of levers for their
latches: it is SECTION UPDATE, as the consumption's (DESIGN CHOICE, log entry 44). -/
def State.consumeReads (s : State) (e : EndNo) : List RecordId :=
  if (s.pairOf e).isSome then .switch :: s.pairReads e ++ s.latchReads e else []

/-- The release lever reached REVERSE: an AVAILABLE release is consumed, the records read for it verified
(R97). -/
def State.releaseReached (s : State) (l : LeverNo) : State :=
  match (s.leverCfg l).releaseOf with
  | some e =>
    if s.working then
      let s := s.verify .sectionUpdate [.release e]
      if (s.release e).state == .available then
        (s.verify .sectionUpdate (s.consumeReads e)).consumeAvailable e
      else s
    else s
  | none => s

/-- What a stroke's end at a position hands on, where it was completed (R24). -/
def State.strokeEnd (s : State) (l : LeverNo) (left : LeverEnd) (new : LeverPos) : State :=
  match left, new with
  | .reverse, .normal => s.triggerTimers l
  | .normal, .reverse => s.releaseReached l
  | _, _ => s

/-- The contact fault of a lever's contacts: set and reported on entry, cleared otherwise (R21). In LOCKDOWN, where
R38 and R148 have no more than the positions read, its notice and tally follow too (DESIGN CHOICE, log entry 61). -/
def State.contactFault (s : State) (l : LeverNo) (both : Bool) : State :=
  let had := (s.lever l).contactFault
  let s := s.updLever l fun v => { v with contactFault := both }
  if both && !had then s.contained .contactFault (l.val + 1) else s

/-- A change of a lever's position (R23, R24, R29, R31). -/
def State.leverMoves (s : State) (l : LeverNo) (new : LeverPos) : State :=
  let v := s.lever l
  if v.position == new then s
  else
    let t := (s.leaveMid l).updLever l fun v =>
      { v with
        position := new
        stroke := strokeAfter v new (s.lockOn l)
        latch := latchAfter v (s.leverCfg l) new }
    let t := t.normalMoved l new
    match strokeLeft v new with
    | some left => t.strokeEnd l left new
    | none => t

/-- A lever's taken contacts are judged after a change of either (R21). -/
def State.contactsTaken (s : State) (l : LeverNo) : State :=
  let v := s.lever l
  let both := v.nContact.closed && v.rContact.closed
  (s.contactFault l both).leverMoves l (positionOf v.nContact.closed v.rContact.closed)

/-- The first reading after initialisation: both contacts at once; it ends and begins no stroke, and
at REVERSE it sets a signal lever's latch (R22). It is handed on as a change of position (R24, R97). -/
def State.firstContacts (s : State) (l : LeverNo) (n r : Bool) : State :=
  let new := positionOf n r
  let t := (s.updLever l fun v =>
    { v with
      nContact := Input.takenAs n
      rContact := Input.takenAs r
      contactsRead := true
      position := new
      latch := new == .reverse && (s.leverCfg l).isSignal }).contactFault l (n && r)
  if new == .unknown then t else t.normalMoved l new

/-- One lever at a scan, while lever records exist (R19, R22). -/
def State.scanLever (s : State) (inp : ScanInputs) (l : LeverNo) : State :=
  let v := s.lever l
  let n := inp.leverN.getLsbD l.val
  let r := inp.leverR.getLsbD l.val
  if !v.contactsRead then s.firstContacts l n r
  else
    let n' := v.nContact.read n
    let r' := v.rContact.read r
    let t := s.updLever l fun v => { v with nContact := n', rContact := r' }
    if n'.closed != v.nContact.closed || r'.closed != v.rContact.closed then t.contactsTaken l else t

/-! ## The other inputs of the scan -/

/-- A commutator's contacts as a scan reads them. -/
def Commutator.read (k : Commutator) (b c o : Bool) : Commutator :=
  { k with blockedIn := k.blockedIn.read b, clearIn := k.clearIn.read c,
           occupiedIn := k.occupiedIn.read o }

/-- A commutator's contacts are the same taken values. -/
def Commutator.sameContacts (a b : Commutator) : Bool :=
  a.blockedIn.closed == b.blockedIn.closed && a.clearIn.closed == b.clearIn.closed
    && a.occupiedIn.closed == b.occupiedIn.closed

/-- One end's commutator and bell key at a scan, each taken change handed on (R19). -/
def State.scanEnd (s : State) (inp : ScanInputs) (e : EndNo) : State :=
  let k := s.comm e
  let k' := k.read (inp.commBlocked.getLsbD e.val) (inp.commClear.getLsbD e.val)
    (inp.commOccupied.getLsbD e.val)
  let s := s.updComm e fun _ => k'
  let s := if k'.sameContacts k then s else s.commChange e
  let i := (s.bell e).keyIn
  let i' := i.read (inp.keys.getLsbD e.val)
  let s := s.updBell e fun b => { b with keyIn := i' }
  if i'.closed == i.closed then s else s.keyChange e i'.closed

/-- The switching key at a scan. -/
def State.scanKey (s : State) (inp : ScanInputs) : State :=
  let i := s.switch.keyIn
  let i' := i.read inp.switchKey
  let s := s.updSwitch fun w => { w with keyIn := i' }
  if i'.closed == i.closed then s else s.keyTurn i'.closed

/-- The first scan after power-on: inputs other than lever contacts take the values it reads, with
their runs at 0 (R19). Where records exist already, the same scan's read for the lamps has verified those of the
ends. -/
def State.firstScan (s : State) (inp : ScanInputs) : State :=
  let s := s.each allEnds fun s e =>
    ((s.updComm e fun k =>
      { k with
        blockedIn := Input.takenAs (inp.commBlocked.getLsbD e.val)
        clearIn := Input.takenAs (inp.commClear.getLsbD e.val)
        occupiedIn := Input.takenAs (inp.commOccupied.getLsbD e.val) }).readComm e).updBell e
      fun b => { b with keyIn := Input.takenAs (inp.keys.getLsbD e.val) }
  { s.updSwitch (fun w => { w with keyIn := Input.takenAs inp.switchKey }) with scanned := true }

/-! ## Outputs and readback (R35 to R37) -/

/-- The scan writes the output latches off: no configuration yet, or LOCKDOWN (R19, R38). -/
def State.outputsOff (s : State) : Bool :=
  !s.live || s.service == .unloaded || s.service == .loading || s.service == .lockdown

/-- The bell output of an end as commanded: a stroke of the head code in progress (R70). -/
def State.bellCommand (s : State) (e : EndNo) : Bool :=
  match s.replay.codes with
  | q :: _ => q.endNo == e && s.replay.ringingUntil.isSome
  | [] => false

/-- The state that the next scan gives an output's drive (R35). -/
def State.driven (s : State) (n : OutputNo) : Bool := !s.outputsOff && (s.output n).command

/-- The scan writes the output latches of drives and bells (R35). -/
def State.writeDrives (s : State) : State :=
  { s with
    outputs := build 48 fun n => { s.output n with drive := s.driven n }
    latches := { s.latches with bells := build 6 fun e => !s.outputsOff && s.bellCommand e } }

/-- The records read for the lamps of an end (R121): its view, the neighbour's station record at an owner, the
offer outstanding, and for the causes of switching the switch record, the pair and the demand. -/
def State.endLampReads (s : State) (e : EndNo) : List RecordId :=
  match s.endCfg e with
  | some c =>
    s.viewReads e ++ [.outstanding e, .switch] ++ s.pairReads e
      ++ (s.throughRearOf e).toList.map .demand ++ if c.owner then [.stationRec c.neighbour] else []
  | none => []

/-- The records read for the lamps of every end: the STATION CONFIGURATION for the flashes (R139), and each
end's. R140 names no operation for them: it is SECTION UPDATE (DESIGN CHOICE, log entry 44). -/
def State.lampReads (s : State) : List RecordId :=
  if s.outputsOff then [] else .fixed .station :: allEnds.flatMap s.endLampReads

/-- The scan writes the output latches of the lamps, the records read for them verified (R121). -/
def State.writeLamps (s : State) : State :=
  let s := s.verify .sectionUpdate s.lampReads
  { s with latches := { s.latches with
      lamps := build 6 fun e => if s.outputsOff then Lamps.off else s.lamps e } }

/-- The disagreement run of an output after a scan that reads its monitor (R35). -/
def Output.compare (o : Output) (m : Bool) : Output :=
  if m == o.drive then { o with monitor := m, sense := m, run := 0, notEnergized := false }
  else
    { o with
      monitor := m
      sense := m
      run := if o.sense == m && 0 < o.run then min (o.run + 1) Config.readbackScans else 1 }

/-- A monitor energized against its command outlasts the tolerance (R36). -/
def State.readbackFailed (s : State) (n : OutputNo) : State :=
  if (s.output n).failedMark || s.service == .lockdown then s
  else
    (s.updOutput n fun o => { o with failedMark := true }).urgent .outputReadback (.output n)
      (some .lockEvaluation) .none

/-- A monitor de-energized against its command outlasts the tolerance (R37). A flag that still stands, no scan
having agreed since, raises no new notice (DESIGN CHOICE, log entry 62). -/
def State.lockSilent (s : State) (n : OutputNo) : State :=
  if (s.output n).notEnergized || s.service == .lockdown then s
  else (s.updOutput n fun o => { o with notEnergized := true }).contained .lockNotEnergized (n.val + 1)

/-- Readback of one output at a scan: reported at the sixth consecutive disagreement (R35). -/
def State.readback (s : State) (inp : ScanInputs) (n : OutputNo) : State :=
  let o := s.output n
  let o' := o.compare (inp.monitors.getLsbD n.val)
  let s := s.updOutput n fun _ => o'
  if o'.run == Config.readbackScans && o.run != Config.readbackScans then
    if o'.monitor then s.readbackFailed n else s.lockSilent n
  else s

/-! ## Lane supervision (R53) -/

/-- A disagreement of the lanes on an expression has passed the tolerance. -/
def State.laneOverdue (s : State) (x : ExprNo) : Bool :=
  match (look s.lanes x).since with
  | some t => t + Config.readbackTolerance < s.clock
  | none => false

/-- SELF CHECK on an expression is reported, and the expression marked lane failed (R53). -/
def State.laneFault (s : State) (x : ExprNo) : State :=
  if (look s.lanes x).laneFailed || !s.judging then s
  else
    State.urgent { s with lanes := upd s.lanes x fun l => { l with laneFailed := true } } .selfCheck
      (.record (.fixed (.expr x))) (some .lockEvaluation) .notApplied

/-! ## The scan -/

/-- The records the frame unit reads at every scan: the levers, the collar set and the timers (R140). -/
def frameUnitReads : List RecordId :=
  allLevers.flatMap leverReads
    ++ .collars :: allTimers.flatMap fun t => [RecordId.fixed (.timer t), .timer t]

/-- The levers at a scan (R19, R22). A record that this scan's read has found damaged and re-initialised is
UNKNOWN until the next scan reads its contacts (R48); one that stays poisoned in LOCKDOWN is read on (R38). -/
def State.scanLevers (s : State) (inp : ScanInputs) (found : List RecordId) : State :=
  s.each allLevers fun s l =>
    if found.contains (.lever l) && !(s.lever l).contactsRead then s else s.scanLever inp l

/-- The inputs of a scan are taken (R19): at once at the first scan, else by agreement. -/
def State.scanInputs (s : State) (inp : ScanInputs) (found : List RecordId) : State :=
  let s := if s.hasConfig && s.running then s.scanLevers inp found else s
  if s.scanned then (s.each allEnds fun s e => s.scanEnd inp e).scanKey inp else s.firstScan inp

/-- The supervisions of a scan: readback from LOADED onward (R35; the monitors that a scan reads in UNLOADED or
LOADING are kept nowhere: DESIGN CHOICE, log entry 15), and the lanes, which judge at every
scan from LOADED onward (R53, R54). Of two outputs, or two expressions, whose faults come at one scan, the one
of the lower number is reported first: no rule says which is (DESIGN CHOICE, log entry 4). -/
def State.scanSupervise (s : State) (inp : ScanInputs) (found : List RecordId) : State :=
  let s := if s.live then s.each allOutputs fun s n => s.readback inp n else s
  let s := { s with laneErrA := inp.laneErrA, laneErrB := inp.laneErrB, judged := s.judged || s.judging }
  (s.judgeLanes found).each allExprs fun s x => if s.laneOverdue x then s.laneFault x else s

/-- The damaged records that the frame unit's reads at a scan find while the evaluator works. -/
def State.scanFinds (s : State) : List RecordId := if s.judging then s.hits frameUnitReads else []

/-- One scan (R19): outputs written, the records read for the lamps and the frame unit's verified, inputs taken,
the supervisions made, and the event closed. The frame unit reads its records in LOCKDOWN too, in which lever
positions are still read (R38, R148; log entry 61). -/
def State.scan (s0 : State) (inp : ScanInputs) : State :=
  let s := s0.reach (s0.scanAt + Config.scanPeriod)
  let s := (State.writeDrives { s with scanAt := s.clock }).writeLamps
  let found := s.scanFinds
  let s := if s.live then s.verify .lockEvaluation frameUnitReads else s
  ((s.scanInputs inp found).scanSupervise inp found).closeEvent s0 true found

/-! ## One input's change, on its own -/

/-- A lever contact's taken value changes, the lever's records verified by the read, in LOCKDOWN too (R38). -/
def State.leverContact (s : State) (l : LeverNo) (rev : Bool) : State :=
  let s := if s.live then s.verify .lockEvaluation (.collars :: leverReads l) else s
  if s.live && (s.lever l).contactsRead then
    (s.updLever l fun v =>
      if rev then { v with rContact := Input.takenAs !v.rContact.closed }
      else { v with nContact := Input.takenAs !v.nContact.closed }).contactsTaken l
  else s

/-- A commutator contact's taken value changes. -/
def Commutator.flip (k : Commutator) (p : CommPos) : Commutator :=
  match p with
  | .blocked => { k with blockedIn := Input.takenAs !k.blockedIn.closed }
  | .clear => { k with clearIn := Input.takenAs !k.clearIn.closed }
  | .occupied => { k with occupiedIn := Input.takenAs !k.occupiedIn.closed }

/-- An input's taken value changes, its run at 0, and the change is handed to its owner (R19). -/
def State.takeChange (s : State) (i : InputId) : State :=
  match i with
  | .leverN l => s.leverContact l false
  | .leverR l => s.leverContact l true
  | .commutator e p => (s.updComm e fun k => k.flip p).commChange e
  | .bellKey e =>
    let v := !(s.bell e).keyIn.closed
    (s.updBell e fun b => { b with keyIn := Input.takenAs v }).keyChange e v
  | .switchKey =>
    let v := !s.switch.keyIn.closed
    (s.updSwitch fun w => { w with keyIn := Input.takenAs v }).keyTurn v

/-- The moment at which the next scan is due. -/
def State.nextScan (s : State) : Nat := s.scanAt + Config.scanPeriod

/-! ## Meanings -/

/-- FRAME_SCAN (R19): in every service state, while the part is not held in reset. During the memory test, in which
no rule speaks of the scan, it runs and takes its first values too (DESIGN CHOICE, log entry 71). -/
def execFrameScan (inp : ScanInputs) (s : State) : Host.Outcome State Fault Refusal :=
  .next (if s.power == .held then s else s.scan inp)

/-- TAKEN_CHANGE (R19): the input's agreement run reaches 3 at a scan, one during the memory test too (DESIGN CHOICE,
log entry 71). -/
def execTakenChange (i : InputId) (s : State) : Host.Outcome State Fault Refusal :=
  .next <|
    if s.power == .held || !s.scanned then s
    else ((s.reach s.nextScan).takeChange i).react s

/-- TIMER_EXPIRY (R34): a RUNNING timer's remaining time reaches zero. -/
def execTimerExpiry (t : TimerNo) (s : State) : Host.Outcome State Fault Refusal :=
  .next <|
    match look s.timers t with
    | some due =>
      if s.live then
        let u := (s.reach due).verify .lockEvaluation [.fixed (.timer t), .timer t]
        State.react { u with timers := upd u.timers t fun x => if x == some due then none else x } s
      else s
    | none => s

/-- OUTPUT_READBACK (R36): the sixth consecutive scan with the monitor energized against a
de-energized command, which the drive has taken and which still stands at that scan (R35). -/
def execOutputReadback (n : OutputNo) (s : State) : Host.Outcome State Fault Refusal :=
  .next <|
    if s.live && s.service != .lockdown && !(s.output n).drive && !s.driven n
        && !(s.output n).failedMark then
      let t := s.reach s.nextScan
      let t := t.updOutput n fun o =>
        { o with monitor := true, sense := true, run := Config.readbackScans }
      (t.readbackFailed n).react s
    else s

/-- LOCK_NOT_ENERGIZED (R37): the sixth consecutive scan with the monitor de-energized against an
energized command, which the drive has taken and which still stands at that scan (R35). Nothing follows while the
flag stands (DESIGN CHOICE, log entry 62). -/
def execLockNotEnergized (n : OutputNo) (s : State) : Host.Outcome State Fault Refusal :=
  .next <|
    if s.live && s.service != .lockdown && (s.output n).drive && s.driven n
        && !(s.output n).notEnergized then
      let t := s.reach s.nextScan
      let t := t.updOutput n fun o =>
        { o with monitor := false, sense := false, run := Config.readbackScans }
      (t.lockSilent n).react s
    else s

/-- SELF_CHECK (R53): a lane disagreement on an expression passes 20 ms. -/
def execSelfCheck (x : ExprNo) (s : State) : Host.Outcome State Fault Refusal :=
  .next <|
    match (look s.lanes x).since with
    | some t =>
      if s.judging && !(look s.lanes x).laneFailed then
        ((s.reach (t + Config.readbackTolerance)).laneFault x).react s
      else s
    | none => s

end Sys2Proof.Machine
end

