-- ==== Sys2Proof/Machine/Integrity.lean ====
section
/-! DEFINITION. The integrity unit's and the record unit's events: the scrubber, the RESUME pass and
its success, the power-on reset with its memory test, and the time of day. -/

namespace Sys2Proof.Machine

open Sys2Proof

/-! ## Damage and the scrubber (R137, R138) -/

/-- A record that damage can befall unseen: it exists, and is neither poisoned nor damaged already. -/
def State.canUpset (s : State) (r : RecordId) : Bool :=
  s.scrubOrder.contains r && !s.isPoisoned r && !s.isDamaged r

/-- Damage befalls records: their content disagrees with their check words from now on. -/
def State.upset (s : State) (rs : List RecordId) : State :=
  s.each rs fun s r =>
    if s.canUpset r then s.updIntegrity fun g => { g with damaged := g.damaged ++ [r] } else s

/-- A record visited in scrub order is verified with the operation SCRUB. -/
def State.visit (s : State) (at_ : Nat) : State :=
  match s.scrubOrder[at_]? with
  | some r => s.verify .scrub [r]
  | none => s

/-- The position after one, beginning again at the first record (R138). -/
def State.nextVisit (s : State) (at_ : Nat) : Nat :=
  if at_ + 1 < s.scrubOrder.length then at_ + 1 else 0

/-! ## RESUME (R150, R151) -/

/-- An owned record on a RESUME to PROVING (R93): a new record, its acceptance number, next request
number and obstruction flag kept. -/
def View.resumed (v : View) : View :=
  { View.fresh with acc := v.acc, nextReq := v.nextReq, obstruction := v.obstruction }

/-- The records read for the return to PROVING: the switch record, and the owned ends' views (R93, R125). -/
def State.resumeReads (s : State) : List RecordId := .switch :: s.ownedEnds.flatMap s.viewReads

/-- The blocks begin or begin anew on the entry to PROVING by a RESUME (R151): owned records CLOSED, keys set,
the mark judged, OPEN and the states offered. An owned view that becomes CLOSED so ends its offer outstanding
and its offer record, as R65 and R67 have it, where the table after R73 has both kept on RESUME, and its
CONSUMED release with the through demand for it, as R98 and R128 have it, where R151 and the table after R123
keep them (DESIGN CHOICE, log entry 55). -/
def State.resumeProving (s : State) : State :=
  let s := s.verify .sectionUpdate s.resumeReads
  if !s.working then s
  else
    let s := s.each s.ownedEnds fun s e =>
      match s.endCfg e with
      | some c => s.changeView e c (s.view e).resumed false
      | none => s
    s.followViews.holdOffKeys.beginSwitch.beginLine

/-- The readback failed marks cleared, the tolerance counted afresh (R36): at a RESUME as R151 has it
(log entry 21), at a RESTART by choice (DESIGN CHOICE, log entry 52). -/
def State.clearReadback (s : State) : State :=
  { s with outputs := s.outputs.map fun o => { o with failedMark := false, run := 0 } }

/-- The lane failed marks cleared (R54). -/
def State.clearLaneMarks (s : State) : State :=
  { s with lanes := s.lanes.map fun l => { l with laneFailed := false } }

/-- A pass ends with an outcome; the scrubber goes on from the first record (R138, R171). -/
def State.endPass (s : State) (o : ResumeOutcome) : State :=
  (s.updIntegrity fun g => { g with resume := o, scrubAt := 0, passAt := 0, passPoisoned := none
    }).updPanel fun p => { p with command := none }

/-- A RESUME succeeds (R151). -/
def State.resumeDone (s : State) : State :=
  let back := s.returnState.getD .loaded
  let s := (s.endPass .done).updIntegrity fun g => { g with report := none }
  let s := { s with service := back }
  let s := s.clearReadback.clearLaneMarks
  if back == .proving then s.resumeProving else s

/-- The pass after a visit that found no new damage: the first poisoned record it meets is kept, and
after the last record it ends (R150). -/
def State.passStep (s : State) : State :=
  let r := s.scrubOrder[s.integrity.passAt]?
  let s := s.updIntegrity fun g =>
    { g with
      passAt := g.passAt + 1
      passPoisoned := g.passPoisoned <|> (r.filter fun r => g.poisoned.contains r) }
  if s.integrity.passAt < s.scrubOrder.length then s
  else
    match s.integrity.passPoisoned with
    | some p => s.endPass (.refused p)
    | none => s.resumeDone

/-- The RESUME pass is the command in progress. -/
def State.passing (s : State) : Bool := s.panel.command == some .resume

/-! ## Power (R163) -/

/-- The records after a power-on reset, the waiting commands apart: nothing survives. -/
def State.powerOn (s : State) : State := { State.reset with pending := s.pending }

/-- The RESET pin asserted, or the supply below its range: every output latch off, the block line
undriven, no transaction answered; the records stand until the reset removes them. -/
def State.hold (s : State) : State :=
  { s with
    power := .held
    outputs := s.outputs.map fun o => { o with drive := false }
    latches := ⟨Vector.replicate 6 Lamps.off, Vector.replicate 6 false⟩
    line := { s.line with sending := none }
    panel := { s.panel with response := none } }

/-- The fault report of a failed memory test (R145, R148). -/
def State.memoryReport (s : State) : FaultReport where
  kind := .selfCheck
  item := .memory
  op := none
  effect := .none
  time := s.records.time
  timeValid := s.records.timeValid
  returnState := none
  multiCheckWord := false
  multiSelfCheck := false
  multiReadback := false

/-- The memory test has failed: the report filled, LOCKDOWN entered, no FAILED sent (R148). -/
def State.memoryFailed (s : State) : State :=
  let s := { s with power := .running, service := .lockdown }
  (s.updIntegrity fun g => { g with report := some s.memoryReport }).notify .lockdown 0

/-! ## Time of day (R159) -/

/-- The time of day advanced by 1, wrapping at midnight. -/
def RecordUnit.tick (r : RecordUnit) : RecordUnit :=
  { r with time := if r.time + 1 < Config.dayTenths then r.time + 1 else 0 }

/-! ## Meanings -/

/-- POWER_ON_RESET (R163). -/
def execPowerOnReset (s : State) : Host.Outcome State Fault Refusal := .next s.powerOn

/-- RESET_PIN_ASSERT (R163). -/
def execResetPinAssert (s : State) : Host.Outcome State Fault Refusal := .next s.hold

/-- MEMORY_TEST_END (R148, R163). -/
def execMemoryTestEnd (passed : Bool) (s : State) : Host.Outcome State Fault Refusal :=
  .next <|
    if s.power == .testing then
      if passed then { s with power := .running, service := .unloaded } else s.memoryFailed
    else s

/-- SCRUB_VISIT (R138): `upset` is the damage that has befallen records before the visit. -/
def execScrubVisit (upset : List RecordId) (s : State) : Host.Outcome State Fault Refusal :=
  .next <|
    if s.live && !s.passing then
      let at_ := s.integrity.scrubAt
      let u := s.upset upset
      State.react ((u.visit at_).updIntegrity fun g => { g with scrubAt := s.nextVisit at_ }) u
    else s

/-- RESUME_PASS_VISIT (R150). -/
def execResumePassVisit (upset : List RecordId) (s : State) : Host.Outcome State Fault Refusal :=
  .next <|
    if s.live && s.passing then
      let u := s.upset upset
      let t := u.visit s.integrity.passAt
      (if t.passing then t.passStep else t).react u
    else s

/-- TIME_TICK (R159): in every service state, and during the memory test too (DESIGN CHOICE, log entry 71). -/
def execTimeTick (s : State) : Host.Outcome State Fault Refusal :=
  .next <|
    if s.power == .held then s
    else
      let t := s.reach (s.tickAt + Config.timeTick)
      { t with tickAt := t.clock, records := t.records.tick }

end Sys2Proof.Machine
end

