-- ==== Sys2Proof/Machine/Operands.lean ====
section
/-! DEFINITION. The operands of the panel commands as their frames carry them (section 11.3): the
code and payload of each command, the frame with its CRC, and the reading of a frame (R161, R174). -/

namespace Sys2Proof.Machine

open Sys2Proof

/-- The eight bytes of a lever mask: byte j, from 1, carries levers 8j − 7 to 8j, the lowest in bit
0. -/
def maskBytes (m : BitVec 64) : List Byte := (List.range 8).map fun j => m.extractLsb' (8 * j) 8

/-- The lever mask of eight bytes. -/
def maskOf (bs : List Byte) : BitVec 64 :=
  bs.foldr (fun b m => m <<< 8 ||| b.zeroExtend 64) 0

/-- The code and payload of a panel command; none for every other row of the table. -/
def panelPayload (i : Instr) : Option (Nat × List Byte) :=
  match i with
  | .loadBegin => some (1, [])
  | .loadRecord k n c => some (2, byte k :: two n ++ c)
  | .loadEnd d => some (3, wordBytes d)
  | .enterService => some (4, [])
  | .restart => some (5, [])
  | .setTime t => some (6, three t)
  | .setCollars m v => some (7, maskBytes m ++ maskBytes v)
  | .restoreChannel n => some (8, [byte n])
  | .arrivalRelease n => some (9, [byte n])
  | .clearSwitchCause => some (10, [])
  | .repairRecord k n c => some (11, byte k :: two n ++ c)
  | .resume => some (12, [])
  | .readStation => some (13, [])
  | .readSection n => some (14, [byte n])
  | .readTrack n => some (15, [byte n])
  | .readFrame => some (16, [])
  | .readFault => some (17, [])
  | .noticeRead => some (18, [])
  | .registerRead => some (19, [])
  | _ => none

/-- A command frame: code, length, payload and CRC. -/
def frameOf (code : Nat) (payload : List Byte) : List Byte :=
  let body := byte code :: byte payload.length :: payload
  body ++ wordBytes (crc16 body)

/-- The frame of a panel command. -/
def commandFrame (i : Instr) : Option (List Byte) := (panelPayload i).map fun p => frameOf p.1 p.2

/-- The command of a code and a payload, where the payload's length is in range (R174). -/
def readPayload (code : Nat) (p : List Byte) : Option Instr :=
  match code, p with
  | 1, [] => some .loadBegin
  | 2, k :: n1 :: n0 :: c =>
    if contentFits k.toNat c then some (.loadRecord k.toNat (num2 n1 n0) c) else none
  | 3, [d1, d0] => some (.loadEnd (wordOf d1 d0))
  | 4, [] => some .enterService
  | 5, [] => some .restart
  | 6, [t2, t1, t0] => some (.setTime (num3 t2 t1 t0))
  | 7, bs =>
    if bs.length = 16 then some (.setCollars (maskOf (bs.take 8)) (maskOf (bs.drop 8))) else none
  | 8, [n] => some (.restoreChannel n.toNat)
  | 9, [n] => some (.arrivalRelease n.toNat)
  | 10, [] => some .clearSwitchCause
  | 11, k :: n1 :: n0 :: c =>
    if repairFits k.toNat c then some (.repairRecord k.toNat (num2 n1 n0) c) else none
  | 12, [] => some .resume
  | 13, [] => some .readStation
  | 14, [n] => some (.readSection n.toNat)
  | 15, [n] => some (.readTrack n.toNat)
  | 16, [] => some .readFrame
  | 17, [] => some .readFault
  | 18, [] => some .noticeRead
  | 19, [] => some .registerRead
  | _, _ => none

/-- The command of a completed command frame; none where its CRC is bad, its code unknown or its
length out of range (R161). -/
def readCommand (frame : List Byte) : Option Instr :=
  match frame with
  | code :: len :: rest =>
    let p := rest.take len.toNat
    if rest.length = len.toNat + 2 ∧
        rest.drop len.toNat = wordBytes (crc16 (code :: len :: p)) then
      readPayload code.toNat p
    else none
  | _ => none

end Sys2Proof.Machine
end

