-- ==== Sys2Proof/Machine/Load.lean ====
section
/-! DEFINITION. Loading the configuration (section 10.4): the staging area, the four checks of LOAD
END in order, and the creation of the records when they pass. -/

namespace Sys2Proof.Machine

open Sys2Proof

/-! ## The staging area (R165) -/

/-- A record stands before another in scrub order. -/
def StaticId.before (a b : StaticId) : Bool :=
  a.kindCode < b.kindCode || (a.kindCode == b.kindCode && a.index < b.index)

/-- A record placed in the staging area at its kind and index, kept in scrub order; one already there
is replaced. -/
def stage (r : Staged) : List Staged → List Staged
  | [] => [r]
  | q :: qs =>
    if q.item == r.item then r :: qs
    else if r.item.before q.item then r :: q :: qs
    else q :: stage r qs

/-- The image digest: one CRC carried across every staged record in scrub order (R173). -/
def imageDigest (rs : List Staged) : Word :=
  crc16 (rs.flatMap fun r => recordBytes r.item r.content)

/-- A record is staged. -/
def isStaged (rs : List Staged) (r : StaticId) : Bool := rs.any fun q => q.item == r

/-! ## Checks: the first item that fails -/

/-- The first of a list of items that fails a check. -/
def firstBad {α : Type} (xs : List α) (ok : α → Bool) (id : α → StaticId) : Option StaticId :=
  (xs.find? fun x => !ok x).map id

/-- The first failure of several checks in order. -/
def firstSome : List (Option StaticId) → Option StaticId
  | [] => none
  | some r :: _ => some r
  | none :: xs => firstSome xs

/-- The records that every image must hold (the table of section 10.4). -/
def required : List StaticId :=
  [.station] ++ allChannels.map .channel ++ allLevers.map .lever ++ allTimers.map .timer
    ++ allCodes.map .code ++ allSubs.map .sub

/-- The first gap of a kind staged from the first: an item missing although a later one is staged. -/
def firstGap (rs : List Staged) (items : List StaticId) : Option StaticId :=
  match items with
  | [] => none
  | x :: xs => if !isStaged rs x && xs.any (isStaged rs) then some x else firstGap rs xs

/-- MISSING: the required records in scrub order, then the gaps of the EXPRESSIONs, the section ends and the
through pairs (R166). Which of several missing items the outcome names, no rule says (DESIGN CHOICE, log entry
19). -/
def missing (rs : List Staged) : Option StaticId :=
  firstSome [firstBad required (isStaged rs) id, firstGap rs (allExprs.map .expr),
    firstGap rs (allEnds.map .sectionEnd), firstGap rs (allPairs.map .pair)]

/-! ### RANGE (R166) -/

/-- A field of 0 is not set and takes its default. -/
def orDefault (n d : Nat) : Nat := if n = 0 then d else n

def within (lo n hi : Nat) : Bool := lo ≤ n && n ≤ hi

/-- Ranges of the STATION CONFIGURATION. -/
def StationCfg.inRange (c : StationCfg) : Bool :=
  let gsep := orDefault c.gsep Config.defaultGsep
  1 ≤ c.address.val
    && within 200 (orDefault c.slowPeriod Config.defaultSlow.1) 2000
    && within 10 (orDefault c.slowDuty Config.defaultSlow.2) 90
    && within 200 (orDefault c.fastPeriod Config.defaultFast.1) 2000
    && within 10 (orDefault c.fastDuty Config.defaultFast.2) 90
    && within 200 gsep 800
    && within (gsep + 200) (orDefault c.gend Config.defaultGend) 3000

/-- Ranges of a channel's static part (R1). -/
def ChannelCfg.inRange (c : ChannelCfg) : Bool :=
  c.k ≤ 4 && within 1 c.kd 254 && within (c.kd + 1) c.kp 255 && within 256 c.kh 511
    && within 1 c.nd 8 && within 1 c.np 64 && 16 ≤ c.rmin && c.rmin < c.rmax && c.rmax ≤ 16368
    && within c.rmin c.rnom c.rmax && 256 ≤ c.rmin * (c.kp - c.kd)

/-- Whether a track may be named: local, or remote with a used subscription (R89). -/
def Configuration.hasTrack (c : Configuration) : Track → Bool
  | .here _ => true
  | .far i => (look c.subs i).isSome

/-- Presence and ranges of a section end's own fields (R92), its neighbour against the station's own address among
them: R166 names R92 under RANGE and under REFERENCE (DESIGN CHOICE, log entry 19). -/
def EndCfg.inRange (own : Addr) (c : EndCfg) : Bool :=
  within 1 c.section_ 63 && 1 ≤ c.neighbour.val && c.neighbour != own
    && (match c.kind with
        | .inwardOneWay => c.owner
        | .outwardOneWay => !c.owner
        | .twoWay => true)
    && (if c.canAccept then
          c.commutator && c.homeLever.isSome && 1 ≤ c.proving.length
        else
          !c.commutator && c.homeLever.isNone && c.clearance.isEmpty && c.proving.isEmpty)
    && (if c.canRear then c.releaseLever.isSome && c.entryTrack.isSome
        else c.releaseLever.isNone && c.entryTrack.isNone)
    && c.farEntry.isSome == c.owner

/-- Ranges of a record's content; the counts of expressions and through pairs are checked with the
references (R55, R124). -/
def StaticContent.inRange (cfg : Configuration) : StaticContent → Bool
  | .station c => c.inRange
  | .channel c => c.inRange
  | .lever _ | .code _ | .expr _ | .pair _ => true
  | .timer none => true
  | .timer (some c) => within 1 c.duration 240 && cfg.hasTrack c.approach
  | .sub none => true
  | .sub (some c) => 1 ≤ c.publisher.val && c.publisher != cfg.address
  | .sectionEnd c => c.inRange cfg.address

/-- A staged record satisfies the ranges of its kind. -/
def Staged.inRange (cfg : Configuration) (r : Staged) : Bool :=
  match readStatic r.item r.content with
  | some v => v.inRange cfg
  | none =>
    match r.item with
    | .expr _ | .pair _ => true
    | _ => false

/-- The configuration that the staged records spell. -/
def stagedConfig (rs : List Staged) : Configuration :=
  rs.foldl (fun c r =>
    match readStatic r.item r.content with
    | some v => c.put r.item v
    | none => c) Configuration.absent

/-! ### REFERENCE (R20, R55, R89, R92, R124) -/

/-- The expressions of a configuration with their numbers. -/
def Configuration.numbered (c : Configuration) : List (ExprNo × Expr) :=
  allExprs.filterMap fun x => (c.exprs[x.val]?).map fun e => (x, e)

/-- The configured section ends. -/
def Configuration.endList (c : Configuration) : List (EndNo × EndCfg) :=
  allEnds.filterMap fun e => (look c.ends e).map fun v => (e, v)

/-- The configured through pairs. -/
def Configuration.pairList (c : Configuration) : List (PairNo × PairCfg) :=
  allPairs.filterMap fun p => (look c.pairs p).map fun v => (p, v)

/-- No earlier lever names the same lock or control output (R20): of two that do, the later one fails (DESIGN
CHOICE, log entry 19). -/
def Configuration.outputsUnique (c : Configuration) (l : LeverNo) : Bool :=
  let v := look c.levers l
  allLevers.all fun m =>
    !(m.val < l.val) ||
      ((v.lock.isNone || (look c.levers m).lock != v.lock)
        && (v.control.isNone || (look c.levers m).control != v.control))

/-- A lever satisfies the checks of R20 for what names it: the section ends whose release lever it is and
the pairs among whose through levers it stands. R50 and R51 call a lever a release or through lever by its
own Release of or Through of field, and R20 speaks of a lever named as one: where the field alone names an
end or a pair, the outputs are not checked (DESIGN CHOICE, log entry 45). -/
def Configuration.leverOk (c : Configuration) (l : LeverNo) : Bool :=
  let v := look c.levers l
  let starts := c.endList.filter fun x => x.2.releaseLever == some l
  let through := c.pairList.any fun x => x.2.levers.contains l
  c.outputsUnique l && starts.length ≤ 1
    && (starts.all fun x => v.lock.isSome && v.control.isSome && v.releaseOf == some x.1)
    && (!through || (v.lock.isSome &&
        (v.throughOf.map fun p => (look c.pairs p).isSome).getD false))

/-- A lever has the output that an expression of a kind governs (R55). -/
def LeverCfg.governs (v : LeverCfg) : ExprKind → Bool
  | .reverse | .normal => v.lock.isSome
  | .control => v.control.isSome

/-- A lever has every expression it needs (R55). -/
def Configuration.leverExprs (c : Configuration) (l : LeverNo) : Bool :=
  let v := look c.levers l
  [ExprKind.reverse, .normal, .control].all fun k => !v.governs k || (c.exprOf l k).isSome

/-- A condition names what the configuration has (R55). -/
def Configuration.condOk (c : Configuration) : Cond → Bool
  | .trackClear t | .trackOccupied t => c.hasTrack t
  | .sectionBlocked e | .sectionOccupied e | .releaseAvailable e | .releaseConsumed e =>
    (look c.ends e).isSome
  | .timerIdle t => (look c.timers t).isSome
  | .leverNormal _ | .leverReverse _ | .switchedIn | .switchedOut => true

/-- An expression belongs to its lever, alone of its kind, and its conditions name what there is. -/
def Configuration.exprOk (c : Configuration) (x : ExprNo × Expr) : Bool :=
  (look c.levers x.2.lever).governs x.2.kind && c.exprOf x.2.lever x.2.kind == some x.1
    && x.2.terms.all fun t => t.all c.condOk

/-- The staged expressions that do not spell an expression of R40. -/
def badExpr (rs : List Staged) : Option StaticId :=
  firstBad (rs.filter fun r => r.item.kindCode == 10)
    (fun r => (readStatic r.item r.content).isSome) (·.item)

/-- The table checks of R55: the expressions that spell none first, then the levers that lack one, then the
expressions' levers and conditions, and the limit. R55 gives no order among them (DESIGN CHOICE, log entry
19). -/
def Configuration.tableCheck (c : Configuration) (rs : List Staged) : Option StaticId :=
  let conds := (c.exprs.map fun e => (e.terms.map (·.length)).sum).sum
  firstSome [badExpr rs, firstBad allLevers c.leverExprs .lever,
    firstBad c.numbered c.exprOk fun x => .expr x.1,
    if conds ≤ 768 then none else some (.expr ⟨0, by decide⟩)]

/-- No earlier used subscription names the same publisher and channel (R89). -/
def Configuration.subOk (c : Configuration) (i : SubNo) : Bool :=
  (look c.subs i).isNone ||
    allSubs.all fun j => !(j.val < i.val) || look c.subs j != look c.subs i

/-- Every track a section end names is local or subscribed, and its far entry track's publisher is
the neighbour (R89, R92). -/
def Configuration.endTracksOk (c : Configuration) (v : EndCfg) : Bool :=
  (v.clearance ++ v.proving).all c.hasTrack
    && match v.farEntry with
       | some i => ((look c.subs i).map fun x => x.publisher == v.neighbour).getD false
       | none => true

/-- A section end's id is no earlier end's, and its references hold (R92). -/
def Configuration.endOk (c : Configuration) (x : EndNo × EndCfg) : Bool :=
  (c.endList.all fun y => !(y.1.val < x.1.val) || y.2.section_ != x.2.section_)
    && c.endTracksOk x.2

/-- A pair end that can be rear while its partner can be accepting (section 7.1). -/
def Configuration.rearIn (c : Configuration) (e a : EndNo) : Bool :=
  match look c.ends e, look c.ends a with
  | some x, some y => x.canRear && y.canAccept
  | _, _ => false

/-- The release lever of an end. -/
def Configuration.releaseLeverOf (c : Configuration) (e : EndNo) : Option LeverNo :=
  (look c.ends e).bind (·.releaseLever)

/-- A through pair satisfies R124. -/
def Configuration.pairOk (c : Configuration) (x : PairNo × PairCfg) : Bool :=
  let v := x.2
  let rears := ([(v.endA, v.endB), (v.endB, v.endA)].filter fun y => c.rearIn y.1 y.2).map (·.1)
  (look c.ends v.endA).isSome && (look c.ends v.endB).isSome && v.endA != v.endB
    && (c.pairList.all fun y => y.1 == x.1 ||
        (!y.2.ends.contains v.endA && !y.2.ends.contains v.endB
          && y.2.levers.all fun l => !v.levers.contains l))
    && !rears.isEmpty && 1 ≤ v.levers.length
    && (v.levers.all fun l =>
        (look c.levers l).lock.isSome && (look c.levers l).throughOf == some x.1)
    && rears.all fun e => (c.releaseLeverOf e).any v.levers.contains

/-- The staged through pairs that do not spell a pair. -/
def badPair (rs : List Staged) : Option StaticId :=
  firstBad (rs.filter fun r => r.item.kindCode == 25)
    (fun r => (readStatic r.item r.content).isSome) (·.item)

/-- REFERENCE: the checks between records, in the order of R166. -/
def Configuration.reference (c : Configuration) (rs : List Staged) : Option StaticId :=
  firstSome [firstBad allLevers c.leverOk .lever, c.tableCheck rs, firstBad allSubs c.subOk .sub,
    firstBad c.endList c.endOk fun x => .sectionEnd x.1, badPair rs,
    firstBad c.pairList c.pairOk fun x => .pair x.1]

/-- The checks of LOAD END on the staged records, in order: the first that fails, with the record
concerned (R166). -/
def loadCheck (rs : List Staged) (digest : Word) : Option (LoadCheck × Option StaticId) :=
  let c := stagedConfig rs
  if imageDigest rs != digest then some (.digest, none)
  else
    match missing rs with
    | some r => some (.missing, some r)
    | none =>
      match firstBad rs (·.inRange c) (·.item) with
      | some r => some (.range, some r)
      | none => (c.reference rs).map fun r => (.reference, some r)

/-! ## Creating the records (R167) -/

/-- The digest entries that LOAD END stores, one for each static record (R141, R173). -/
def Configuration.digests (c : Configuration) : List (StaticId × Word) :=
  c.statics.filterMap fun r => (c.content r).map fun v => (r, recordDigest r v.bytes)

/-- The integrity unit's records when LOAD END passes. -/
def Integrity.created (g : Integrity) (c : Configuration) : Integrity :=
  { g with
    damaged := [], poisoned := [], digests := c.digests, stray := [], scrubAt := 0, report := none
    resume := .none, passAt := 0, passPoisoned := none, tallies := Vector.replicate 7 0 }

/-- The blocks' dynamic records that LOAD END and RESTART both create new, the commutators, the keys' inputs and
the switch record apart. An answer echo goes with the line unit's: R169 lists it neither as kept nor as
initialised (DESIGN CHOICE, log entry 57). The commutators are kept whole, contact faults included, of which
R169 says as little (DESIGN CHOICE, log entry 65). -/
def State.newRecords (s : State) : State :=
  { s with
    channels := build 12 fun c => Channel.fresh (s.channelCfg c).rnom
    levers := Vector.replicate 64 Lever.fresh
    collars := Vector.replicate 64 ⟨false, none⟩
    timers := Vector.replicate 8 none
    lanes := Vector.replicate 80 Lanes.fresh
    bells := s.bells.map fun (b : BellEnd) => { BellEnd.fresh with keyIn := b.keyIn }
    replay := Replay.empty
    line :=
      { LineUnit.fresh (if s.line.sending.isSome then s.clock + Config.idleGap else s.line.idleAt) with
        cut := s.line.cut }
    ends := s.ends.map fun (d : EndDyn) =>
      { view := View.fresh, release := Release.none, demand := none, comm := d.comm } }

/-- The switch record new, its key input kept (R125). -/
def SwitchRec.created (w : SwitchRec) : SwitchRec := ⟨.inn, none, w.keyIn, false, none⟩

/-- The checks have passed: the configuration, every record, and LOADED; the lanes judge first at the next
frame scan (R54, R167). -/
def State.createAll (s : State) (rs : List Staged) : State :=
  let s := { s with cfg := stagedConfig rs, hasConfig := true }
  let s := s.newRecords
  let s := s.updIntegrity fun g => g.created s.cfg
  let s := s.updSwitch SwitchRec.created
  let s := s.updPanel fun p => { p with command := none, staging := none, load := .passed }
  { s with service := .loaded, judged := false }

/-- The checks end (R167): passed, or failed with the staging area kept. -/
def State.endChecks (s : State) (digest : Word) : State :=
  let rs := s.panel.staging.getD []
  match loadCheck rs digest with
  | none => s.createAll rs
  | some (k, r) => s.updPanel fun p => { p with command := none, load := .failed k r }

/-! ## Meaning -/

/-- LOAD_END_CHECKS_COMPLETE (R166, R167). -/
def execLoadEndChecksComplete (s : State) : Host.Outcome State Fault Refusal :=
  .next <|
    match s.panel.command with
    | some (.loadEnd d) => if s.running && s.service == .loading then s.endChecks d else s
    | _ => s

end Sys2Proof.Machine
end

