-- ==== Sys2Proof/Machine/Track.lean ====
section
/-! DEFINITION. The track sensing unit (01_track_circuit_sensing.md): one sample of one channel, and
the events of the table that a sample can bring. -/

namespace Sys2Proof.Machine

open Sys2Proof

/-! ## Thresholds (R5) -/

/-- Td: the floor of R × Kd / 256. -/
def dropThreshold (c : ChannelCfg) (r : Nat) : Nat := r * c.kd / 256
/-- Tp: the floor of R × Kp / 256. -/
def pickThreshold (c : ChannelCfg) (r : Nat) : Nat := r * c.kp / 256
/-- Th: the smaller of 16368 and the floor of R × Kh / 256. -/
def highThreshold (c : ChannelCfg) (r : Nat) : Nat := min Config.fullScale (r * c.kh / 256)

/-! ## What a sample brings -/

/-- The events of the table that a sample can bring, with the notices it raises. -/
inductive TrackEvent where
  | settled
  | dropConfirmed
  | pickupConfirmed
  | bob
  | failed (cause : FailCause)
  | reference
  | lowFeed
  | highFeed
  deriving DecidableEq, Repr

/-- A channel with the events its sample brought. -/
abbrev Sampled := Channel × List TrackEvent

/-- Entry to FAILED (R11). -/
def Channel.fail (ch : Channel) (why : FailCause) : Channel :=
  { ch with decision := .failed, cause := some why, drop := 0, pick := 0, high := 0, interval := 0 }

/-- The filter update of R4: the quotient is truncated toward zero. -/
def filtered (k f counts : Nat) : Nat :=
  ((f : Int) + Int.tdiv (16 * (counts : Int) - f) (2 ^ k)).toNat

/-- The decision in CLEAR (R8), for the channel with its new F. -/
def Channel.decideClear (ch : Channel) (c : ChannelCfg) : Sampled :=
  if ch.f < dropThreshold c ch.r then
    if c.nd ≤ 1 then ({ ch with decision := .occupied, drop := 0, high := 0 }, [.dropConfirmed])
    else ({ ch with decision := .dropping, drop := 1, high := 0 }, [])
  else if highThreshold c ch.r < ch.f then
    if c.nd ≤ ch.high + 1 then (ch.fail .highValue, [.failed .highValue])
    else ({ ch with high := ch.high + 1 }, [])
  else ({ ch with high := 0 }, [])

/-- The decision in DROPPING (R9). -/
def Channel.decideDropping (ch : Channel) (c : ChannelCfg) : Sampled :=
  if ch.f < dropThreshold c ch.r then
    if c.nd ≤ ch.drop + 1 then ({ ch with decision := .occupied, drop := 0 }, [.dropConfirmed])
    else ({ ch with drop := ch.drop + 1 }, [])
  else ({ ch with decision := .clear, drop := 0, bob := true }, [.bob])

/-- The decision in OCCUPIED (R10). -/
def Channel.decideOccupied (ch : Channel) (c : ChannelCfg) : Sampled :=
  if pickThreshold c ch.r ≤ ch.f then
    if c.np ≤ 1 then ({ ch with decision := .clear, pick := 0 }, [.pickupConfirmed])
    else ({ ch with decision := .picking, pick := 1 }, [])
  else (ch, [])

/-- The decision in PICKING (R10). -/
def Channel.decidePicking (ch : Channel) (c : ChannelCfg) : Sampled :=
  if pickThreshold c ch.r ≤ ch.f then
    if c.np ≤ ch.pick + 1 then ({ ch with decision := .clear, pick := 0 }, [.pickupConfirmed])
    else ({ ch with pick := ch.pick + 1 }, [])
  else ({ ch with decision := .occupied, pick := 0 }, [])

/-- The decision for the channel's state (section 1.4); FAILED stays (R11). -/
def Channel.decide (ch : Channel) (c : ChannelCfg) : Sampled :=
  match ch.decision with
  | .clear => ch.decideClear c
  | .dropping => ch.decideDropping c
  | .occupied => ch.decideOccupied c
  | .picking => ch.decidePicking c
  | .failed => (ch, [])

/-- The reference update of R7. -/
def Channel.updateReference (ch : Channel) (c : ChannelCfg) : Sampled :=
  let x : Int := (ch.r : Int) + Int.tdiv ((ch.f : Int) - ch.r) 16
  if x < c.rmin then
    ({ ch with r := c.rmin, clamp := .low, lowFeed := ch.lowFeed || ch.clamp != .low },
      .reference :: if ch.clamp == .low then [] else [.lowFeed])
  else if (c.rmax : Int) < x then
    ({ ch with r := c.rmax, clamp := .high, highFeed := ch.highFeed || ch.clamp != .high },
      .reference :: if ch.clamp == .high then [] else [.highFeed])
  else ({ ch with r := x.toNat, clamp := .none }, [.reference])

/-- The interval step of R6, after a decision on a channel that stood at `was` before it. -/
def Channel.intervalStep (ch : Channel) (c : ChannelCfg) (was : Decision) : Sampled :=
  if was == .clear && ch.decision == .clear && ch.high == 0 then
    if ch.interval + 1 < Config.referenceInterval then
      ({ ch with interval := ch.interval + 1 }, [])
    else { ch with interval := 0 }.updateReference c
  else ({ ch with interval := 0 }, [])

/-- The settle count of a sample (R3). -/
def Channel.settleStep (ch : Channel) (c : ChannelCfg) : Sampled :=
  if ch.settle < c.np then
    ({ ch with settle := ch.settle + 1 }, if ch.settle + 1 = c.np then [.settled] else [])
  else (ch, [])

/-- A valid sample, the settle count apart (R3, R4, R6). -/
def Channel.validSample (ch : Channel) (c : ChannelCfg) (counts : Nat) : Sampled :=
  let d := { ch with faultRun := 0, f := filtered c.k ch.f counts }.decide c
  let i := d.1.intervalStep c ch.decision
  (i.1, d.2 ++ i.2)

/-- An invalid sample, the settle count apart (R3, R11). -/
def Channel.invalidSample (ch : Channel) : Sampled :=
  let ch' := { ch with faultRun := min (ch.faultRun + 1) 3, interval := 0 }
  if 3 ≤ ch.faultRun + 1 && ch.decision != .failed then
    (ch'.fail .converter, [.failed .converter])
  else (ch', [])

/-- One sample of a channel, taken whole (R3). -/
def Channel.sample (ch : Channel) (c : ChannelCfg) (x : Sample) : Sampled :=
  let a := ch.settleStep c
  let b := match x with
    | .valid n => a.1.validSample c n.val
    | .fault => a.1.invalidSample
  (b.1, a.2 ++ b.2)

/-! ## The sample as an event of the part -/

/-- The notice or contained fault of a track event (R7, R9, R11). -/
def State.trackNotice (s : State) (c : ChanNo) (ev : TrackEvent) : State :=
  match ev with
  | .bob => s.notify .trackBob (c.val + 1)
  | .failed _ => s.contained .trackFailed (c.val + 1)
  | .lowFeed => s.contained .lowFeed (c.val + 1)
  | .highFeed => s.contained .highFeed (c.val + 1)
  | .settled | .dropConfirmed | .pickupConfirmed | .reference => s

/-- The moment of a channel's next sample (section 1.2). -/
def State.sampleDue (s : State) (c : ChanNo) : Nat := look s.sampledAt c + Config.samplePeriod

/-- What the sample would bring the channel. -/
def State.sampled (s : State) (c : ChanNo) (x : Sample) : Sampled :=
  (s.channel c).sample (s.channelCfg c) x

/-- A conversion of a channel: both parts of its record are read for use; a sound one takes the sample, a
channel whose static part is poisoned takes none (R3, R18). A dynamic part that stays poisoned, as LOCKDOWN
leaves it, takes it too, the poison kept (DESIGN CHOICE, log entry 66). -/
def State.takeSample (s0 : State) (c : ChanNo) (x : Sample) : State :=
  let s := (s0.reach (s0.sampleDue c)).verify .trackUpdate [.fixed (.channel c), .channel c]
  let s := { s with sampledAt := upd s.sampledAt c fun _ => s.clock }
  if s.badStatic (.channel c) then s.react s0
  else
    let r := s.sampled c x
    State.react ((s.updChannel c fun _ => r.1).each r.2 fun s ev => s.trackNotice c ev) s0

/-- The sample is taken where it brings the event that names it; otherwise that event does not
occur. -/
def State.takeSampleIf (s : State) (c : ChanNo) (x : Sample) (ev : TrackEvent) : State :=
  if s.live && !s.badStatic (.channel c) && (s.sampled c x).2.contains ev then s.takeSample c x else s

/-! ## Meanings -/

/-- TRACK_SAMPLE (R3): taken while the dynamic record exists (R2, R17). -/
def execTrackSample (c : ChanNo) (x : Sample) (s : State) : Host.Outcome State Fault Refusal :=
  .next (if s.live then s.takeSample c x else s)

/-- REFERENCE_UPDATE (R7): the sample that brings the interval count to 100. -/
def execReferenceUpdate (c : ChanNo) (counts : Fin 1024) (s : State) :
    Host.Outcome State Fault Refusal :=
  .next (s.takeSampleIf c (.valid counts) .reference)

/-- DROP_CONFIRMED (R8, R9): the sample that brings the drop count to Nd. -/
def execDropConfirmed (c : ChanNo) (counts : Fin 1024) (s : State) :
    Host.Outcome State Fault Refusal :=
  .next (s.takeSampleIf c (.valid counts) .dropConfirmed)

/-- PICKUP_CONFIRMED (R10): the sample that brings the pick-up count to Np. -/
def execPickupConfirmed (c : ChanNo) (counts : Fin 1024) (s : State) :
    Host.Outcome State Fault Refusal :=
  .next (s.takeSampleIf c (.valid counts) .pickupConfirmed)

/-- HIGH_VALUE_FAILURE (R8, R11): the sample that brings the high count to Nd. -/
def execHighValueFailure (c : ChanNo) (counts : Fin 1024) (s : State) :
    Host.Outcome State Fault Refusal :=
  .next (s.takeSampleIf c (.valid counts) (.failed .highValue))

/-- CONVERTER_FAILURE (R3, R11): the third consecutive invalid sample. -/
def execConverterFailure (c : ChanNo) (s : State) : Host.Outcome State Fault Refusal :=
  .next (s.takeSampleIf c .fault (.failed .converter))

/-- CHANNEL_SETTLED (R15): the sample that brings the settle count to Np. -/
def execChannelSettled (c : ChanNo) (x : Sample) (s : State) : Host.Outcome State Fault Refusal :=
  .next (s.takeSampleIf c x .settled)

end Sys2Proof.Machine
end

