-- ==== Sys2Proof/Machine/Panel.lean ====
section
/-! DEFINITION. The panel port (10_panel_port_and_service_entry.md): the order of judgement of R162
and the commands that change the station. -/

namespace Sys2Proof.Machine

open Sys2Proof

/-! ## Answers (R161, R162) -/

/-- The reasons carried with REFUSED, by their code (section 11.3). -/
def Response.refusedFor (code : Nat) : Response := ⟨.refused, [byte code]⟩

/-- A response with no payload. -/
def Response.plain (s : Status) : Response := ⟨s, []⟩

/-- The transaction is answered. -/
def State.respond (s : State) (r : Response) : State := s.updPanel fun p => { p with response := some r }

def State.answerOk (s : State) : State := s.respond (.plain .ok)

/-- The status codes (section 11.3). -/
def statusCode : Status → Nat
  | .ok => 0
  | .inProgress => 1
  | .busy => 2
  | .refused => 3
  | .badState => 4
  | .badArgument => 5

/-- The response frame: the status, a 2-byte length, the payload and the CRC over them (section 11.3,
R173). -/
def Response.frame (r : Response) : List Byte :=
  let body := byte (statusCode r.status) :: two r.payload.length ++ r.payload
  body ++ wordBytes (crc16 body)

/-- The byte that the part clocks out in a place after the command frame, from 0: the turnaround byte,
which is 0, the response frame to the last command judged, and bytes of 0 past its end (R161). A frame
that was given no response is followed by bytes of 0. -/
def State.clockedOut (s : State) (k : Nat) : Byte :=
  (0 :: ((s.panel.response.map Response.frame).getD []))[k]?.getD 0

/-- What the gate needs to know of a command: whether it is answered in LOCKDOWN, whether it is
answered while a timed command runs, and the service states in which it is taken (section 10.5). -/
structure Gate where
  inLockdown : Bool
  whileTimed : Bool
  taken : List Service

/-- Steps 1 to 3 of R162: the answer that decides the command before its arguments are judged. During
the memory test every command is answered BUSY (R163). -/
def State.gated (s : State) (g : Gate) : Option Response :=
  if s.power == .testing || (s.panel.command.isSome && !g.whileTimed) then some (.plain .busy)
  else if s.service == .lockdown && !g.inLockdown then some (.refusedFor 1)
  else if g.taken.contains s.service then none
  else some (.plain .badState)

/-- A good command frame judged in the order of R162: the gate, the argument, then the command's own
rule. While the part is held in reset no transaction is answered (R163). -/
def State.transact (s : State) (g : Gate) (argument : Bool) (act : State → State) : State :=
  if s.power == .held then s
  else
    match s.gated g with
    | some r => s.respond r
    | none => if argument then act s else s.respond (.plain .badArgument)

/-- Every service state. -/
def allStates : List Service :=
  [.unloaded, .loading, .loaded, .proving, .inService, .restrictive, .lockdown]

/-- A command taken in some service states, neither in LOCKDOWN nor while a timed command runs. -/
def Gate.of (taken : List Service) : Gate := ⟨false, false, taken⟩

/-- A read answered in every state in which dynamic records exist. -/
def Gate.records : Gate := ⟨true, false, [.loaded, .proving, .inService, .restrictive, .lockdown]⟩

/-- A read answered in every service state. -/
def Gate.always : Gate := ⟨true, false, allStates⟩

/-! ## Loading (R164 to R166) -/

/-- A frame that spells no command is answered BAD ARGUMENT before any state is judged (R161), and BUSY
during the memory test, which answers BUSY to everything (section 10.6; DEDUCED, log entry 25). -/
def State.refuseFrame (s : State) : State :=
  s.respond (.plain (if s.power == .testing then .busy else .badArgument))

/-- An image record's content has the length of its kind, a matter of the frame (R174). -/
def State.framed (s : State) (ok : Bool) (act : State → State) : State :=
  if s.power == .held then s
  else if ok then act s
  else s.refuseFrame

/-- LOAD BEGIN taken (R164). -/
def State.loadBegin (s : State) : State :=
  ({ s with service := .loading }.updPanel fun p =>
    { p with staging := some [], load := .none }).answerOk

/-- LOAD RECORD taken (R165). -/
def State.loadRecord (s : State) (r : Option StaticId) (content : List Byte) : State :=
  match r with
  | some r =>
    (s.updPanel fun p => { p with staging := some (stage ⟨r, content⟩ (p.staging.getD [])) }).answerOk
  | none => s.respond (.plain .badArgument)

/-- LOAD END taken (R166). -/
def State.loadEnd (s : State) (digest : Word) : State :=
  (s.updPanel fun p => { p with command := some (.loadEnd digest), load := .running }).respond
    (.plain .inProgress)

/-! ## Entering service (R168, R169) -/

/-- What every block does as its work begins or begins anew in PROVING (R168), the switch record verified by the
section unit's read; `fresh` says that the section unit begins to work, which reads of each end whether it has a
commutator (R99). -/
def State.beginWorking (s : State) (fresh : Bool) : State :=
  let s := s.verify .sectionUpdate (.switch :: if fresh then s.endStatics else [])
  if !s.working then s
  else
    let s := if fresh then s.beginComms else s
    s.holdOffKeys.beginSwitch.beginLine

/-- The entry to PROVING by a command (R168). -/
def State.enterProving (s : State) (fresh : Bool) : State :=
  State.beginWorking { s with service := .proving } fresh

/-- ENTER SERVICE taken (R168). -/
def State.enterService (s : State) : State := ((s.enterProving true).react s).answerOk

/-- What RESTART initialises (R169); the damage of dynamic records goes with them, save that of the switch
record, whose cause and refusal it keeps, and the lanes judge what it has initialised in its own event (R54).
The readback failed marks cleared, the disagreement runs are counted afresh as at a RESUME: no rule says whether
they go on (DESIGN CHOICE, log entry 52). -/
def State.restartRecords (s : State) : State :=
  let s := { s with records := { s.records with notices := [], overflow := false } }
  let s := (s.forceIn .service).newRecords
  let s := s.updIntegrity fun g =>
    { g with damaged := g.damaged.filter fun r => r.isStatic || r == .switch, scrubAt := 0 }
  { s.clearReadback.silence with judged := true }

/-- The static parts of the channels, from which RESTART initialises their dynamic parts (R2). -/
def channelStatics : List RecordId := allChannels.map fun c => .fixed (.channel c)

/-- RESTART taken (R169). It is taken before its own reads find damage, so that it is answered OK and the
fault comes in PROVING: no rule gives the order (DESIGN CHOICE, log entry 53). -/
def State.restart (s : State) : State :=
  let t := State.verify { s.restartRecords with service := .proving } .trackUpdate channelStatics
  ((t.beginWorking (!s.working)).closeEvent s true []).answerOk

/-! ## Out-of-course commands -/

/-- SET TIME taken (R159): the next advance is due 100 ms later. -/
def State.setTime (s : State) (t : Nat) : State :=
  State.answerOk
    { s with records := { s.records with time := t, timeValid := true }, tickAt := s.clock }

/-- One masked lever's collar (R28): at once at NORMAL, at REVERSE or UNKNOWN, staged at MID. -/
def collarFor (v : Lever) (c : Collar) (on : Bool) : Collar :=
  if v.position == .mid then { c with staged := some on } else ⟨on, none⟩

/-- The collar set with every masked lever's change. -/
def State.setCollars (s : State) (mask value : BitVec 64) : State :=
  { s with collars := build 64 fun l =>
      let c := look s.collars l
      if mask.getLsbD l.val then collarFor (s.lever l) c (value.getLsbD l.val) else c }

/-- Every masked lever has a lock output (R28), by its static part as it is held, poisoned or not: no rule says
what a mask that names a lever so poisoned is answered (DESIGN CHOICE, log entry 53). -/
def State.maskLocked (s : State) (mask : BitVec 64) : Bool :=
  allLevers.all fun l => !mask.getLsbD l.val || (s.leverCfg l).lock.isSome

/-- The records the frame unit reads for a SET COLLARS: the static parts of the masked levers, by which the mask
is judged, and where they pass the collar set and the levers' positions (R28, R140). -/
def State.collarReads (s : State) (mask : BitVec 64) : List RecordId :=
  let masked := allLevers.filter fun l => mask.getLsbD l.val
  (masked.map fun l => .fixed (.lever l)) ++ if s.maskLocked mask then .collars :: masked.map .lever else []

/-- What a command's own rule makes of the records it reads: the records after it, whether it has changed any,
and the answer. -/
structure Judged where
  state : State
  changed : Bool
  answer : Response

/-- A command whose own rule decides on records that it reads (step 5 of R162): they are verified, the rule
judges them as dealt with, and the event is closed where it has changed a record or damage was found. A
command whose reads have brought LOCKDOWN is refused LOCKDOWN and changes nothing: no rule says whether it or
the fault is taken first (DESIGN CHOICE, log entry 53). -/
def State.verified (s : State) (op : Operation) (reads : List RecordId) (judge : State → Judged) : State :=
  let t := s.verify op reads
  let j := if t.service == .lockdown then ⟨t, false, .refusedFor 1⟩ else judge t
  (if j.changed || !(s.hits reads).isEmpty then j.state.react s else j.state).respond j.answer

/-- SET COLLARS' own rule (R28). -/
def State.judgeCollars (s : State) (mask value : BitVec 64) : Judged :=
  if s.maskLocked mask then ⟨s.setCollars mask value, true, .plain .ok⟩
  else ⟨s, false, .plain .badArgument⟩

/-- A FAILED channel restored to OCCUPIED (R12). -/
def Channel.restored (ch : Channel) : Channel :=
  { ch with decision := .occupied, drop := 0, pick := 0, high := 0, faultRun := 0, cause := none }

/-- RESTORE CHANNEL's own rule on the record as it stands (R12); a channel whose static part is poisoned
is held as it stands (R18). -/
def State.judgeRestore (s : State) (c : ChanNo) : Judged :=
  let ch := s.channel c
  if ch.decision != .failed || s.badStatic (.channel c) then ⟨s, false, .plain .badState⟩
  else if ch.f ≤ highThreshold (s.channelCfg c) ch.r then
    ⟨s.updChannel c Channel.restored, true, .plain .ok⟩
  else ⟨s, false, .refusedFor 4⟩

/-- RESTORE CHANNEL (R12): both parts of the record are read for use, as TRACK UPDATE, the operation of the
track sensing unit's reads (DEDUCED, log entry 40). -/
def State.restoreChannel (s : State) (c : ChanNo) : State :=
  s.verified .trackUpdate [.fixed (.channel c), .channel c] fun t => t.judgeRestore c

/-- A release wait starts (R109). -/
def State.startWait (s : State) (e : EndNo) (c : EndCfg) : State :=
  (s.updProof e fun p => { p with waitUntil := some (s.clock + Config.releaseWait) }).register
    (viewEntry c (s.view e) .arrivalRelease false)

/-- ARRIVAL RELEASE's own rule on the proof as it stands (R109). -/
def State.judgeArrivalRelease (s : State) (e : EndNo) : Judged :=
  match s.endCfg e, (s.view e).proof with
  | some c, some p =>
    if p.complete || p.waitUntil.isSome then ⟨s, false, .plain .badState⟩
    else ⟨s.startWait e c, true, .plain .ok⟩
  | _, _ => ⟨s, false, .plain .badState⟩

/-- ARRIVAL RELEASE (R109), the view's records verified by the read. R140 names no operation for it: it is
SECTION UPDATE, as the section unit's other reads (DESIGN CHOICE, log entry 44). -/
def State.arrivalRelease (s : State) (e : EndNo) : State :=
  s.verified .sectionUpdate (s.viewReads e) fun t => t.judgeArrivalRelease e

/-! ## Repair and RESUME (R141, R149, R150) -/

/-- The record that REPAIR RECORD's kind and index name, where the configuration has it: a static
record, or the digest entry of one. -/
def State.repairItem (s : State) (kind index : Nat) : Option RecordId :=
  let at_ (r : Option StaticId) := r.filter fun r => s.cfg.statics.contains r
  if kind = 2 then (at_ (StaticId.of (index / 256) (index % 256))).map .digest
  else (at_ (StaticId.of kind index)).map .fixed

/-- The digest entry of a static record. -/
def State.digestOf (s : State) (r : StaticId) : Option Word :=
  (s.integrity.digests.find? fun d => d.1 == r).map (·.2)

/-- A record's poison is cleared. -/
def State.cleanse (s : State) (r : RecordId) : State :=
  s.updIntegrity fun g => { g with poisoned := g.poisoned.filter (· != r) }

/-- A record's fields are those that a content spells; a content that spells no record of its kind leaves them. -/
def State.putContent (s : State) (r : StaticId) (content : List Byte) : State :=
  { s with cfg := ((readStatic r content).map (s.cfg.put r)).getD s.cfg }

/-- The content of a repaired record written, whatever it is: the digest comparison alone judges it (R174). One
that spells no record of its kind is kept as it was carried, and its fields are a FREE VALUE (log entry 20). -/
def State.writeStatic (s : State) (r : StaticId) (content : List Byte) : State :=
  let others := s.integrity.stray.filter fun x => x.1 != r
  match readStatic r content with
  | some _ => (s.updIntegrity fun g => { g with stray := others }).putContent r content
  | none =>
    (s.updIntegrity fun g => { g with stray := (r, content) :: others }).putContent r
      (Config.strayFields r content)

/-- The content of a static record, as LOAD END or a repair wrote it. -/
def State.contentOf (s : State) (r : StaticId) : Option (List Byte) :=
  match s.integrity.stray.find? fun x => x.1 == r with
  | some x => some x.2
  | none => (s.cfg.content r).map (·.bytes)

/-- A record is written whole, with its check word: damage that no read has met goes with the old content
(R137). -/
def State.rewritten (s : State) (r : RecordId) : State :=
  s.updIntegrity fun g => { g with damaged := g.damaged.filter (· != r) }

/-- What a repaired static record brings its dynamic part, written whole (R18, R149). -/
def State.afterRepair (s : State) (r : StaticId) : State :=
  match r with
  | .channel c =>
    (s.rewritten (.channel c)).updChannel c fun _ => Channel.fresh (s.channelCfg c).rnom
  | .sub i => (s.rewritten (.sub i)).updSub i fun _ => SubEntry.fresh
  | _ => s

/-- The static record may be repaired with a content: its digest entry is sound and equal (R149). -/
def State.repairMatches (s : State) (r : StaticId) (content : List Byte) : Bool :=
  !s.isPoisoned (.digest r) && s.digestOf r == some (recordDigest r content)

/-- The digest entry may be repaired with a digest: the covered record is sound and has it (R141). -/
def State.digestMatches (s : State) (r : StaticId) (digest : List Byte) : Bool :=
  !s.badStatic r && (s.contentOf r).any fun v => wordBytes (recordDigest r v) == digest

/-- A digest entry written. -/
def State.writeDigest (s : State) (r : StaticId) (digest : List Byte) : State :=
  match digest with
  | [a, b] => s.updIntegrity fun g =>
      { g with digests := g.digests.map fun d => if d.1 == r then (r, wordOf a b) else d }
  | _ => s

/-- A static record repaired (R149). -/
def State.repairStatic (s : State) (x : StaticId) (content : List Byte) : Judged :=
  if s.repairMatches x content then
    ⟨((s.cleanse (.fixed x)).writeStatic x content).afterRepair x, true, .plain .ok⟩
  else ⟨s, false, .refusedFor 5⟩

/-- A digest entry repaired, which no block but the integrity unit reads (R139, R141). -/
def State.repairDigest (s : State) (x : StaticId) (digest : List Byte) : Judged :=
  if s.digestMatches x digest then ⟨(s.cleanse (.digest x)).writeDigest x digest, false, .plain .ok⟩
  else ⟨s, false, .refusedFor 5⟩

/-- The record that a repair is judged against: a static record's digest entry, a digest entry's static
record (R141, R149). -/
def RecordId.judgedAgainst : RecordId → List RecordId
  | .fixed x => [.digest x]
  | .digest x => [.fixed x]
  | _ => []

/-- A poisoned record repaired or not, the record it is judged against having been read. -/
def State.judgeRepair (s : State) (r : RecordId) (content : List Byte) : Judged :=
  match r with
  | .fixed x => s.repairStatic x content
  | .digest x => s.repairDigest x content
  | _ => ⟨s, false, .plain .badState⟩

/-- REPAIR RECORD's own rule (R141, R149). R140 names no operation for the reads, and none shows: the report
is filled already in RESTRICTIVE (DESIGN CHOICE, log entry 44). -/
def State.repair (s : State) (r : RecordId) (content : List Byte) : State :=
  if !s.isPoisoned r then s.respond (.plain .badState)
  else s.verified .panelRead r.judgedAgainst fun t => t.judgeRepair r content

/-- RESUME taken (R150). -/
def State.resume (s : State) : State :=
  ((s.updIntegrity fun g =>
    { g with resume := .running, passAt := 0, passPoisoned := none }).updPanel fun p =>
      { p with command := some .resume }).respond (.plain .inProgress)

/-! ## Meanings -/

/-- TRANSACTION_ABORT (R161): the bytes are discarded, and no response is given. -/
def execTransactionAbort (_clocked : List Byte) (s : State) : Host.Outcome State Fault Refusal :=
  .next (s.updPanel fun p => { p with response := none })

/-- BAD_COMMAND_FRAME (R161): answered BAD ARGUMENT; a good frame is not this event. -/
def execBadCommandFrame (frame : List Byte) (s : State) : Host.Outcome State Fault Refusal :=
  .next <|
    if s.power == .held || (readCommand frame).isSome then s else s.refuseFrame

/-- LOAD_BEGIN (R164). -/
def execLoadBegin (s : State) : Host.Outcome State Fault Refusal :=
  .next (s.transact (.of [.unloaded, .loading]) true State.loadBegin)

/-- LOAD_RECORD (R165, R174). -/
def execLoadRecord (kind index : Nat) (content : List Byte) (s : State) :
    Host.Outcome State Fault Refusal :=
  .next <| s.framed (contentFits kind content) fun s =>
    s.transact (.of [.loading]) (StaticId.of kind index).isSome fun s =>
      s.loadRecord (StaticId.of kind index) content

/-- LOAD_END (R166). -/
def execLoadEnd (digest : Word) (s : State) : Host.Outcome State Fault Refusal :=
  .next (s.transact (.of [.loading]) true fun s => s.loadEnd digest)

/-- ENTER_SERVICE (R168). -/
def execEnterService (s : State) : Host.Outcome State Fault Refusal :=
  .next (s.transact (.of [.loaded]) true State.enterService)

/-- RESTART (R169): refused by its own reasons in UNLOADED, LOADING and RESTRICTIVE. -/
def execRestart (s : State) : Host.Outcome State Fault Refusal :=
  .next <| s.transact (.of allStates) true fun s =>
    match s.service with
    | .loaded | .proving | .inService => s.restart
    | .unloaded | .loading => s.respond (.refusedFor 2)
    | .restrictive => s.respond (.refusedFor 3)
    | .lockdown => s.respond (.refusedFor 1)

/-- SET_TIME (R159). -/
def execSetTime (tenths : Nat) (s : State) : Host.Outcome State Fault Refusal :=
  .next (s.transact (.of [.unloaded, .loading, .loaded, .proving, .inService, .restrictive])
    (tenths < Config.dayTenths) fun s => s.setTime tenths)

/-- SET_COLLARS (R28). The mask is judged with the command's own rule, by the static parts of the levers that it
names. A SET COLLARS whose own reads bring LOCKDOWN is refused LOCKDOWN and changes no collar: no rule says
whether it or the fault is taken first (DESIGN CHOICE, log entry 53). -/
def execSetCollars (mask value : BitVec 64) (s : State) : Host.Outcome State Fault Refusal :=
  .next (s.transact (.of [.loaded, .proving, .inService, .restrictive]) true fun s =>
    s.verified .lockEvaluation (s.collarReads mask) fun t => t.judgeCollars mask value)

/-- RESTORE_CHANNEL (R12). -/
def execRestoreChannel (n : Nat) (s : State) : Host.Outcome State Fault Refusal :=
  .next (s.transact (.of [.proving, .inService, .restrictive]) (finOf 12 n).isSome fun s =>
    match finOf 12 n with
    | some c => s.restoreChannel c
    | none => s)

/-- A section end number names a configured end. -/
def State.hasEnd (s : State) (n : Nat) : Bool := ((finOf 6 n).bind s.endCfg).isSome

/-- ARRIVAL_RELEASE (R109). -/
def execArrivalRelease (n : Nat) (s : State) : Host.Outcome State Fault Refusal :=
  .next (s.transact (.of [.proving, .inService, .restrictive]) (s.hasEnd n) fun s =>
    match finOf 6 n with
    | some e => s.arrivalRelease e
    | none => s)

/-- CLEAR_SWITCH_CAUSE (R136). -/
def execClearSwitchCause (s : State) : Host.Outcome State Fault Refusal :=
  .next (s.transact (.of [.loaded, .proving, .inService, .restrictive]) true fun s =>
    (s.updSwitch fun w => { w with cause := none }).answerOk)

/-- REPAIR_RECORD (R141, R149). -/
def execRepairRecord (kind index : Nat) (content : List Byte) (s : State) :
    Host.Outcome State Fault Refusal :=
  .next <| s.framed (repairFits kind content) fun s =>
    s.transact (.of [.restrictive]) (s.repairItem kind index).isSome fun s =>
      match s.repairItem kind index with
      | some r => s.repair r content
      | none => s

/-- RESUME (R150). -/
def execResume (s : State) : Host.Outcome State Fault Refusal :=
  .next (s.transact (.of [.restrictive]) true State.resume)

end Sys2Proof.Machine
end

