-- ==== Sys2Proof/Machine/Reads.lean ====
section
/-! DEFINITION. The read commands: their responses byte by byte (section 11.5) and what reading
clears (R16, R142, R156, R158), every record returned verified as PANEL READ (R170). -/

namespace Sys2Proof.Machine

open Sys2Proof

/-! ## Encodings of responses (section 11.1) -/

/-- Flags in one byte, the first in bit 0. -/
def flags (bs : List Bool) : Byte := byte (bs.foldr (fun b n => bit b + 2 * n) 0)

/-- A duration in tenths of a second, whole tenths, in two bytes; too great to hold reads 65535. -/
def durationBytes (units : Nat) : List Byte := two (min (units / Config.tenths 1) 65535)

/-- The age of a moment that may be absent; 65535 also stands for an absent age. -/
def State.ageBytes (s : State) (t : Option Nat) : List Byte :=
  match t with
  | some t => durationBytes (s.clock - t)
  | none => two 65535

/-- The time that remains to a moment, 0 where it is past. -/
def State.remaining (s : State) (t : Nat) : Nat := t - s.clock

/-- A time that remains, in tenths of a second in one byte. -/
def State.tenthsLeft (s : State) (t : Nat) : Byte := byte (min (s.remaining t / Config.tenths 1) 254)

/-- A record's kind and index, 0 where there is none. -/
def recordRef (r : Option RecordId) : List Byte :=
  match r with
  | some r => byte r.kindCode :: two r.index
  | none => [0, 0, 0]

/-- The bytes of a static part in a response: as its fields spell them, or, while it holds a content that spells
no record of its kind, that content as a repair carried it (log entry 20). -/
def State.staticPart (s : State) (r : StaticId) (asFields : List Byte) : List Byte :=
  match s.integrity.stray.find? fun x => x.1 == r with
  | some x => (x.2 ++ List.replicate asFields.length 0).take asFields.length
  | none => asFields

/-! ## READ TRACK -/

def causeOfFail : Option FailCause → Nat
  | none => 0
  | some .highValue => 1
  | some .converter => 2

def clampCode : Clamp → Nat
  | .none => 0
  | .low => 1
  | .high => 2

/-- The response of READ TRACK (R16). -/
def State.trackBytes (s : State) (c : ChanNo) : List Byte :=
  let ch := s.channel c
  let k := s.channelCfg c
  [byte (trackCode ch.decision.reported), byte (decisionCode ch.decision)]
    ++ two ch.f ++ two ch.r ++ two (dropThreshold k ch.r) ++ two (pickThreshold k ch.r)
    ++ two (highThreshold k ch.r)
    ++ [byte ch.drop, byte ch.pick, byte ch.high, byte ch.interval, byte ch.faultRun,
        byte ch.settle, byte (causeOfFail ch.cause), byte (clampCode ch.clamp),
        flags [s.settled c, ch.bob, ch.lowFeed, ch.highFeed, s.badStatic (.channel c),
          s.isPoisoned (.channel c)]]

/-! ## READ FRAME -/

/-- The end a stroke left, as a bit. -/
def leftBit (k : Option Stroke) : Bool := k.any fun k => k.left == .reverse

/-- The two bytes of a lever (section 11.5). -/
def State.leverBytes (s : State) (l : LeverNo) : List Byte :=
  let v := s.lever l
  [byte (leverPosCode v.position + 4 * bit v.contactFault + 8 * bit v.stroke.isSome
      + 16 * bit (leftBit v.stroke) + 32 * bit (v.stroke.any (·.hold))
      + 64 * bit (look s.collars l).effective + 128 * bit v.latch),
   flags [s.badStatic (.lever l), s.isPoisoned (.lever l)]]

def Output.byte (o : Output) : Byte := flags [o.command, o.monitor, o.failedMark, o.notEnergized]

/-- The three bytes of a timer; an IDLE one has 0 remaining (DESIGN CHOICE, log entry 22). -/
def State.timerBytes (s : State) (t : TimerNo) : List Byte :=
  let x := look s.timers t
  flags [x.isSome, s.badStatic (.timer t), s.isPoisoned (.timer t)]
    :: durationBytes ((x.map s.remaining).getD 0)

/-- The response of READ FRAME (R39). -/
def State.frameBytes (s : State) : List Byte :=
  allLevers.flatMap s.leverBytes ++ allOutputs.map (fun n => (s.output n).byte)
    ++ allTimers.flatMap s.timerBytes ++ [flags [s.isPoisoned .collars]]

/-! ## READ SECTION -/

def localCode : LocalObs → Nat
  | .clear => 0
  | .set => 1
  | .setSeen => 2

def digestCode : DigestMatch → Nat
  | .unknown => 0
  | .yes => 1
  | .no => 2

/-- The age of a view: of a mirror's last SECTION STATE; absent for an owner's own record (section
11.1). -/
def State.viewAge (s : State) (e : EndNo) (c : EndCfg) : List Byte :=
  s.ageBytes (if c.owner then none else (s.lineEnd e).stateAt)

/-- The owner fault that a view shows: at an owner in RESTRICTIVE and LOCKDOWN, the states in which R49 has it mark
its sections so. A section record has no such field, and R85 has it carried in RESTRICTIVE alone, since in LOCKDOWN
no SECTION STATE is built: that the bit stands in LOCKDOWN is the model's (DESIGN CHOICE, log entry 74). -/
def State.viewFault (s : State) (e : EndNo) (c : EndCfg) : Bool :=
  if c.owner then s.service == .restrictive || s.service == .lockdown else (s.view e).ownerFault

/-- The view group (9 bytes). -/
def State.viewBytes (s : State) (e : EndNo) (c : EndCfg) : List Byte :=
  let v := s.view e
  [byte (secStateCode v.state), byte (dirCode v.dir), byte v.acc, byte (v.cls.getD 0),
   flags [v.obstruction, s.viewFault e c, v.gesture, v.marked, v.autoCancel,
     s.freshView e c],
   byte (localCode v.localObs), byte (digestCode v.digest)] ++ s.viewAge e c

/-- The far status group (2 bytes); 0 where there is none (DESIGN CHOICE, log entry 22). -/
def farBytes (x : Option FarStatus) : List Byte :=
  match x with
  | some f =>
    [byte (1 + 2 * commCode f.commutator + 8 * relCode f.release + 32 * bit f.proofComplete),
     byte f.releaseNo]
  | none => [0, 0]

/-- The pending request group (4 bytes); number and time read 0 where there is none (DESIGN CHOICE, log entry
22). -/
def State.pendingBytes (s : State) (v : View) : List Byte :=
  (match v.pending with
   | some p => [byte (reqKindCode p.kind), byte p.number, s.tenthsLeft p.deadline]
   | none => [0, 0, 0]) ++ [byte v.nextReq]

/-- The arrival proof group (4 bytes); 0 where there is none, or for a wait not running (DESIGN CHOICE, log entry
22). -/
def State.proofBytes (s : State) (p : Option Proof) : List Byte :=
  match p with
  | some p =>
    [flags [true, p.complete, p.waitUntil.isSome], byte p.p]
      ++ durationBytes ((p.waitUntil.map s.remaining).getD 0)
  | none => [0, 0, 0, 0]

/-- The release record group (4 bytes); 0 at an end that cannot be rear (R174). -/
def State.releaseBytes (s : State) (e : EndNo) (c : EndCfg) : List Byte :=
  if c.canRear then
    let r := s.release e
    [byte (relCode r.state), byte r.acc] ++ s.ageBytes r.normalAt
  else [0, 0, 0, 0]

def attendCode : Attend → Nat
  | .off => 0
  | .slow => 1
  | .fast => 2
  | .steady => 3

/-- The lamps as commanded (1 byte). -/
def Lamps.byte (l : Lamps) : Byte :=
  Sys2Proof.byte (secStateCode l.state + 4 * bit l.direction + 8 * attendCode l.attend)

/-- Class and age of an offer (3 bytes). -/
def State.offerBytes (s : State) (o : Option Offer) : List Byte :=
  byte ((o.map (·.cls)).getD 0) :: s.ageBytes (o.map (·.setAt))

/-- The bell group (15 bytes). -/
def State.bellBytes (s : State) (e : EndNo) : List Byte :=
  let b := s.bell e
  let groups := (b.code.map (·.groups)).getD []
  [byte (phaseCode b.phase), byte groups.length] ++ places 5 groups
    ++ [flags [b.code.any (·.overlong)]] ++ s.offerBytes b.offer ++ s.offerBytes b.outstanding
    ++ [flags [b.lost]]

def demandCode : DemandState → Nat
  | .waiting => 1
  | .accepted => 2
  | .passing => 3

/-- The through demand group (5 bytes); 0 at an end that is not a through rear end (R174). The numbers of an
absent demand, the partner number of a WAITING one, and an absent last refusal read 0 (DESIGN CHOICE, log entry
22). -/
def State.demandBytes (s : State) (e : EndNo) : List Byte :=
  if s.isThroughRear e then
    match s.demand e with
    | some d =>
      [byte (demandCode d.state), byte d.relNo, byte d.partnerNo,
       byte (reasonCodeOpt d.lastRefusal), (d.retryAt.map s.tenthsLeft).getD 255]
    | none => [0, 0, 0, 0, 255]
  else [0, 0, 0, 0, 0]

/-- The response of READ SECTION (R72, R121, R136). In LOCKDOWN, where the scan writes every output latch
off, the lamps returned are those that the view as held would command: R121 has the lamps as commanded
and does not name that state (DESIGN CHOICE, log entry 41). -/
def State.sectionBytes (s : State) (e : EndNo) (c : EndCfg) : List Byte :=
  [byte (e.val + 1), byte (if c.owner then 0 else 1)]
    ++ s.staticPart (.sectionEnd e) (StaticContent.sectionEnd c).bytes
    ++ s.viewBytes e c ++ farBytes (s.view e).farStatus ++ s.pendingBytes (s.view e)
    ++ s.proofBytes (s.view e).proof ++ s.releaseBytes e c
    ++ [byte (commCode (if c.commutator then some (s.comm e).pos else none)
          + 4 * bit (s.comm e).fault), (s.lamps e).byte]
    ++ s.bellBytes e ++ s.demandBytes e
    ++ [flags [s.badStatic (.sectionEnd e), s.isPoisoned (c.viewRecord e),
          s.isPoisoned (.release e), s.isPoisoned (.key e), s.isPoisoned (.offer e),
          s.isPoisoned (.outstanding e), s.isPoisoned (.demand e)]]

/-! ## READ FAULT -/

/-- The fault report's fields (R145). -/
def reportBytes (r : Option FaultReport) : List Byte :=
  match r with
  | some r =>
    [flags [true, r.timeValid, r.multiCheckWord, r.multiSelfCheck, r.multiReadback],
     byte (urgentCode r.kind), byte r.item.kindCode] ++ two r.item.index
      ++ [byte ((r.op.map operationCode).getD 0), byte (effectCode r.effect)] ++ three r.time
      ++ [byte ((r.returnState.map serviceCode).getD 0)]
  | none => List.replicate 11 0

/-- The resume outcome with its record kind and index. -/
def resumeBytes (o : ResumeOutcome) : List Byte :=
  match o with
  | .none => [0, 0, 0, 0]
  | .running => [1, 0, 0, 0]
  | .done => [2, 0, 0, 0]
  | .refused r => 3 :: recordRef (some r)
  | .lockdown => [4, 0, 0, 0]

/-- The response of READ FAULT (R152). -/
def State.faultBytes (s : State) : List Byte :=
  let g := s.integrity
  byte (serviceCode s.service) :: reportBytes g.report ++ resumeBytes g.resume
    ++ recordRef (if s.hasConfig then s.scrubOrder[g.scrubAt]? else none) ++ g.tallies.toList.map byte

/-! ## READ STATION -/

def timedCode : Option Timed → Nat
  | none => 0
  | some (.loadEnd _) => 1
  | some .resume => 2

def checkCode : LoadCheck → Nat
  | .digest => 1
  | .missing => 2
  | .range => 3
  | .reference => 4

/-- The load outcome (5 bytes). -/
def loadBytes (o : LoadOutcome) : List Byte :=
  match o with
  | .none => [0, 0, 0, 0, 0]
  | .running => [1, 0, 0, 0, 0]
  | .passed => [2, 0, 0, 0, 0]
  | .failed k r => [3, byte (checkCode k)] ++ recordRef (r.map .fixed)

/-- The switch record (2 bytes); a station without a through pair has the key position IN (R124). -/
def State.switchBytes (s : State) : List Byte :=
  let w := s.switch
  [byte (switchCode w.state + 4 * bit (s.hasPairs && w.keyIn.closed) + 8 * bit w.mark
    + 16 * causeCode w.cause), byte (reasonCodeOpt w.refusal)]

/-- A through pair (7 bytes): its content save the number of its levers. -/
def State.pairBytes (s : State) (p : PairNo) : List Byte :=
  match s.pairCfg p with
  | some c =>
    let x := s.staticPart (.pair p) (StaticContent.pair c).bytes
    x.take 2 ++ x.drop 3 ++ [flags [s.badStatic (.pair p)]]
  | none => List.replicate 7 0

/-- The transmit queue (5 bytes); it reads empty while the line unit is not working, FAILED in LOCKDOWN
included (R91). -/
def State.queueBytes (s : State) : List Byte :=
  let u := s.line
  (if s.working then
    [byte u.queue.length, byte u.singles, byte ((u.queue.head?.map (·.body.kindCode)).getD 0),
     byte u.attempt]
   else [0, 0, 0, 0])
    ++ [flags (u.owedOpen.isSome :: allEnds.map fun e => (s.lineEnd e).owedAck.isSome)]

/-- A station record (3 bytes); 0 for this station's own address (R174). -/
def State.stationBytes (s : State) (a : Addr) : List Byte :=
  if s.hasConfig && a == s.cfg.address then [0, 0, 0]
  else
    let r := s.stationRec a
    flags [r.fresh, r.lockdown] :: if s.hasConfig then s.ageBytes r.reportAt else [0, 0]

/-- A SECTION STATE freshness (3 bytes); 0 where this station owns the section or has no end. -/
def State.freshBytes (s : State) (e : EndNo) : List Byte :=
  match s.endCfg e with
  | some c =>
    if c.owner then [0, 0, 0]
    else flags [(s.lineEnd e).fresh] :: s.ageBytes (s.lineEnd e).stateAt
  | none => [0, 0, 0]

/-- A subscription (5 bytes); 0 while no configuration exists. -/
def State.subBytes (s : State) (i : SubNo) : List Byte :=
  if s.hasConfig then
    let u := s.sub i
    s.staticPart (.sub i) (StaticContent.sub (look s.cfg.subs i)).bytes
      ++ [byte (trackCode u.state + 4 * bit (s.track (.far i)).isSome
            + 8 * bit (s.badStatic (.sub i)) + 16 * bit (s.isPoisoned (.sub i)))]
      ++ s.ageBytes u.writtenAt
  else [0, 0, 0, 0, 0]

/-- The record unit's group (9 bytes). -/
def RecordUnit.stationBytes (r : RecordUnit) : List Byte :=
  two r.register.length ++ [flags [r.overwrite], byte r.notices.length, flags [r.overflow]]
    ++ three r.time ++ [flags [r.timeValid]]

/-- The response of READ STATION (R91, R136, R170). -/
def State.stationView (s : State) : List Byte :=
  [byte (serviceCode s.service), byte (timedCode s.panel.command)] ++ loadBytes s.panel.load
    ++ resumeBytes s.integrity.resume ++ [byte (if s.hasConfig then s.cfg.address.val else 0)]
    ++ s.switchBytes ++ allPairs.flatMap s.pairBytes ++ s.queueBytes
    ++ allAddrs.flatMap s.stationBytes ++ allEnds.flatMap s.freshBytes
    ++ allSubs.flatMap s.subBytes ++ [byte s.replay.codes.length] ++ s.records.stationBytes

/-! ## REGISTER READ and NOTICE READ -/

/-- A register entry (18 bytes). -/
def Entry.bytes (x : Entry) : List Byte :=
  let i := x.info
  two x.number ++ three x.time
    ++ [flags [x.timeValid, i.acc.isSome, i.overlong, i.relayed, i.auto],
        byte (i.section_.getD 0), byte (eventCode i.kind), byte (i.cls.getD 0), byte (i.acc.getD 0),
        byte ((i.groups.getD []).length)]
    ++ places 5 (i.groups.getD [])
    ++ [byte ((i.meaning.map meaningCode).getD 0), byte (reasonCodeOpt i.reason)]

/-- A notice (6 bytes). -/
def Notice.bytes (n : Notice) : List Byte :=
  [byte (noticeCode n.kind), byte n.subject] ++ three n.time ++ [flags [n.timeValid]]

/-- The response of REGISTER READ (R156). -/
def RecordUnit.registerBytes (r : RecordUnit) : List Byte :=
  two r.register.tail.length ++ [flags [r.overwrite], flags [!r.register.isEmpty]]
    ++ (r.register.head?.map Entry.bytes).getD []

/-- The register after a REGISTER READ (R156). -/
def RecordUnit.registerTaken (r : RecordUnit) : RecordUnit :=
  { r with register := r.register.tail, overwrite := false }

/-- The response of NOTICE READ (R158). -/
def RecordUnit.noticeBytes (r : RecordUnit) : List Byte :=
  [byte r.notices.tail.length, flags [r.overflow]] ++ (r.notices.head?.map Notice.bytes).getD []

/-- The notice queue after a NOTICE READ: the overflow flag is cleared when the queue is left empty
(R158). -/
def RecordUnit.noticeTaken (r : RecordUnit) : RecordUnit :=
  { r with notices := r.notices.tail, overflow := r.overflow && !r.notices.tail.isEmpty }

/-! ## Reading and verifying (R137, R170) -/

/-- The records found damaged by a read marked poisoned in the response. -/
def State.asFound (s : State) (reads : List RecordId) : State :=
  s.updIntegrity fun g => { g with poisoned := g.poisoned ++ s.hits reads }

/-- A read's records are verified as PANEL READ; where damage is found the event is closed. -/
def State.readVerify (s : State) (reads : List RecordId) : State :=
  if (s.hits reads).isEmpty then s else (s.verify .panelRead reads).react s

/-- A read: the response is built from the records as found, and damage found is then dealt with, in
the same event (R137). -/
def State.read (s : State) (reads : List RecordId) (bytes : State → List Byte) : State :=
  (s.readVerify reads).respond ⟨.ok, bytes (s.asFound reads)⟩

/-- The records READ STATION returns. -/
def State.stationReads (s : State) : List RecordId :=
  if s.hasConfig then
    [.fixed .station, .switch, .queue, .replay] ++ allPairs.map (fun p => .fixed (.pair p))
      ++ allAddrs.map .stationRec ++ allEnds.map .freshness
      ++ allSubs.flatMap fun i => [.fixed (.sub i), .sub i]
  else []

/-- The records READ SECTION returns, a mirror's freshness among them (R121, R170). -/
def State.sectionRead (s : State) (e : EndNo) : List RecordId :=
  match s.endCfg e with
  | some c =>
    [.fixed (.sectionEnd e), c.viewRecord e, .release e, .key e, .offer e, .outstanding e, .demand e]
      ++ if c.owner then [] else [.freshness e]
  | none => []

/-- The records READ FRAME returns. -/
def frameReads : List RecordId :=
  allLevers.flatMap (fun l => [RecordId.fixed (.lever l), .lever l])
    ++ allTimers.flatMap (fun t => [RecordId.fixed (.timer t), .timer t]) ++ [.collars]

/-- The sticky flags cleared (R16). -/
def Channel.flagsRead (ch : Channel) : Channel :=
  { ch with bob := false, lowFeed := false, highFeed := false }

/-! ## Meanings -/

/-- READ_STATION (R170): answered in every service state and while a timed command runs. -/
def execReadStation (s : State) : Host.Outcome State Fault Refusal :=
  .next (s.transact ⟨true, true, allStates⟩ true fun s => s.read s.stationReads State.stationView)

/-- READ_SECTION (R121). -/
def execReadSection (n : Nat) (s : State) : Host.Outcome State Fault Refusal :=
  .next (s.transact .records (s.hasConfig → s.hasEnd n) fun s =>
    if s.hasConfig then
      match finOf 6 n with
      | some e => s.read (s.sectionRead e) fun s => ((s.endCfg e).map (s.sectionBytes e)).getD []
      | none => s
    else s.respond (.plain .badState))

/-- READ_TRACK (R16): the flags are returned as they stand and then cleared. -/
def execReadTrack (n : Nat) (s : State) : Host.Outcome State Fault Refusal :=
  .next (s.transact .records (s.hasConfig → (finOf 12 n).isSome) fun s =>
    if s.hasConfig then
      match finOf 12 n with
      | some c =>
        (s.read [.fixed (.channel c), .channel c] fun s => s.trackBytes c).updChannel c
          Channel.flagsRead
      | none => s
    else s.respond (.plain .badState))

/-- READ_FRAME (R39). -/
def execReadFrame (s : State) : Host.Outcome State Fault Refusal :=
  .next (s.transact .records true fun s =>
    if s.hasConfig then s.read frameReads State.frameBytes else s.respond (.plain .badState))

/-- READ_FAULT (R152): the contained tallies are returned and then set to 0. -/
def execReadFault (s : State) : Host.Outcome State Fault Refusal :=
  .next (s.transact .always true fun s =>
    (s.respond ⟨.ok, s.faultBytes⟩).updIntegrity fun g =>
      { g with tallies := Vector.replicate 7 0 })

/-- NOTICE_READ (R158). -/
def execNoticeRead (s : State) : Host.Outcome State Fault Refusal :=
  .next (s.transact .always true fun s =>
    { s with records := s.records.noticeTaken }.respond ⟨.ok, s.records.noticeBytes⟩)

/-- REGISTER_READ (R156). -/
def execRegisterRead (s : State) : Host.Outcome State Fault Refusal :=
  .next (s.transact .always true fun s =>
    { s with records := s.records.registerTaken }.respond ⟨.ok, s.records.registerBytes⟩)

end Sys2Proof.Machine
end

