-- ==== Sys2Proof/Machine/Bell.lean ====
section
/-! DEFINITION. The bell unit's timed events (04_bell_working.md): the code's end, the stuck key, the
offers' expiries, and the strokes of the bell. -/

namespace Sys2Proof.Machine

open Sys2Proof

/-- The code of an end that is ready to end, with when Gend has passed (R58). -/
def State.codeDue (s : State) (e : EndNo) : Option Nat :=
  match (s.bell e).phase, (s.bell e).code with
  | .gap, some a => some (a.lastRelease + Config.ms s.gend)
  | _, _ => none

/-- The code of an end has ended by now, as Gend now stands: it is the default where the STATION CONFIGURATION
has just been found damaged (R58, R139). -/
def State.codeOver (s : State) (e : EndNo) : Bool := (s.codeDue e).any (· ≤ s.clock)

/-! ## Ringing (R70) -/

/-- A number of strokes rung ends a group of a code. -/
def groupEnds : List Nat → Nat → Bool
  | [], _ => false
  | g :: gs, k => k == g || (g < k && groupEnds gs (k - g))

/-- The pitch to the stroke after the first `k` of a code (R70). -/
def pitchAfter (groups : List Nat) (k : Nat) : Nat :=
  if groupEnds groups k then Config.groupPitch else Config.beatPitch

/-- The first scan at or after a moment, as the last scan and the own time stand. -/
def State.scanFor (s : State) (t : Nat) : Nat :=
  let from_ := max t s.clock
  s.scanAt + (from_ - s.scanAt + Config.scanPeriod - 1) / Config.scanPeriod * Config.scanPeriod

/-- The bell output of an end is written. -/
def State.setBell (s : State) (e : EndNo) (on : Bool) : State :=
  { s with latches := { s.latches with bells := upd s.latches.bells e fun _ => on } }

/-- A stroke of the head code starts: the output is energized until 60 ms later, and the next stroke,
or after the last one the next code, is due (R70). That moment is fixed with Gend as it stands when the last
stroke starts, and while the STATION CONFIGURATION is poisoned with the default that R139 gives for timing keys
(DESIGN CHOICE, log entry 59). -/
def State.startStroke (s : State) (q : Queued) : State :=
  let k := s.replay.started + 1
  let due :=
    if q.groups.sum ≤ k then s.clock + Config.groupPitch + Config.ms s.gend
    else s.clock + pitchAfter q.groups k
  State.setBell
    { s with replay := { s.replay with
        started := k
        nextDue := due
        ringingUntil := some (s.clock + Config.bellStroke)
        pauseUntil := if q.groups.sum ≤ k then due else s.replay.pauseUntil } }
    q.endNo true

/-- A stroke ends; after the last one the code leaves the queue (R70). -/
def State.endStroke (s : State) (q : Queued) : State :=
  let r := { s.replay with ringingUntil := none }
  State.setBell
    { s with replay :=
        if q.groups.sum ≤ r.started then
          { r with codes := r.codes.tail, started := 0, nextDue := r.pauseUntil }
        else r }
    q.endNo false

/-- The key record of an end, read by the bell unit for a code sent or for its own moment (R73, R140). -/
def keyReads (e : EndNo) : List RecordId := [.key e]

/-- The event of an end's key record at a moment: the record verified, and the event closed where damage
was found. -/
def State.keyMoment (s : State) (e : EndNo) (act : State → State) : State :=
  s.quietly .telegramBuild (keyReads e) act

/-- A stuck closure is acted upon where the key still stands pressed (R60). -/
def State.stuckAct (s : State) (e : EndNo) : State :=
  match (s.bell e).phase with
  | .pressed _ => if s.working then s.stickKey e none else s
  | _ => s

/-- A key that still stands in HOLD OFF goes to IDLE (R60). -/
def State.holdOffAct (s : State) (e : EndNo) : State :=
  match (s.bell e).phase with
  | .holdOff (some _) => s.updBell e fun b => { b with phase := .idle }
  | _ => s

/-! ## Meanings -/

/-- CODE_END (R58, R64). -/
def execCodeEnd (e : EndNo) (s : State) : Host.Outcome State Fault Refusal :=
  .next <|
    match s.codeDue e with
    | some due =>
      if s.working then
        let t := (s.reach due).verify .telegramBuild (gapReads e)
        (if t.working && t.codeOver e then t.endCode e else t).react s
      else s
    | none => s

/-- STUCK_KEY (R60): a closure reaches 2000 ms. -/
def execStuckKey (e : EndNo) (s : State) : Host.Outcome State Fault Refusal :=
  .next <|
    match (s.bell e).phase with
    | .pressed t =>
      if s.working then
        (s.reach (t + Config.stuckClosure)).keyMoment e fun s => s.stuckAct e
      else s
    | _ => s

/-- HOLD_OFF_END (R60): the key has been open for 1000 ms without a press. -/
def execHoldOffEnd (e : EndNo) (s : State) : Host.Outcome State Fault Refusal :=
  .next <|
    match (s.bell e).phase with
    | .holdOff (some t) =>
      if s.working then
        (s.reach (t + Config.holdOffOpen)).keyMoment e fun s => s.holdOffAct e
      else s
    | _ => s

/-- OFFER_OUTSTANDING_EXPIRY (R65). -/
def execOfferOutstandingExpiry (e : EndNo) (s : State) : Host.Outcome State Fault Refusal :=
  .next <|
    match (s.bell e).outstanding with
    | some o =>
      if s.working then
        (s.reach (o.setAt + Config.offerValidity)).quietly .telegramBuild [.outstanding e] fun s =>
          s.updBell e fun b => { b with outstanding := none }
      else s
    | none => s

/-- OFFER_RECORD_EXPIRY (R67). -/
def execOfferRecordExpiry (e : EndNo) (s : State) : Host.Outcome State Fault Refusal :=
  .next <|
    match (s.bell e).offer with
    | some o =>
      if s.working then
        (s.reach (o.setAt + Config.offerValidity)).quietly .sectionUpdate [.offer e] fun s =>
          s.updBell e fun b => { b with offer := none }
      else s
    | none => s

/-- BELL_STROKE_START (R70): at the first scan at or after the stroke's due time. The replay queue is read,
and the STATION CONFIGURATION for Gend, as SECTION UPDATE (DESIGN CHOICE, log entry 44). -/
def execBellStrokeStart (s : State) : Host.Outcome State Fault Refusal :=
  .next <|
    match s.replay.codes with
    | q :: _ =>
      if s.working && s.replay.ringingUntil.isNone && s.replay.started < q.groups.sum then
        (s.reach (s.scanFor s.replay.nextDue)).quietly .sectionUpdate [.replay, .fixed .station] fun s =>
          if s.replay.codes.isEmpty then s else s.startStroke q
      else s
    | [] => s

/-- BELL_STROKE_END (R70): 60 ms after the stroke's start. -/
def execBellStrokeEnd (s : State) : Host.Outcome State Fault Refusal :=
  .next <|
    match s.replay.codes, s.replay.ringingUntil with
    | q :: _, some t =>
      if s.working then
        (s.reach t).quietly .sectionUpdate [.replay] fun s =>
          if s.replay.codes.isEmpty then s else s.endStroke q
      else s
    | _, _ => s

end Sys2Proof.Machine
end

