-- ==== Sys2Proof/Machine/Line.lean ====
section
/-! DEFINITION. The line unit's events (05_the_block_line.md): gaining the line, collisions and
success, the refreshes, owed telegrams, staleness, and the judgement of a received telegram. -/

namespace Sys2Proof.Machine

open Sys2Proof

/-! ## Sending (R76 to R79) -/

/-- The wait after the idle gap before the head telegram, in bit times (R76). -/
def waitBits (address attempt : Nat) : Nat :=
  if attempt = 0 then 2 * address else (address + 16 * attempt) * 4

/-- The line unit transmits: while working, and in LOCKDOWN for FAILED (R75, R86), from a queue that stays poisoned
there too (DESIGN CHOICE, log entry 68); never while its station's address is poisoned (R139). -/
def State.transmits (s : State) : Bool :=
  (s.working || (s.running && s.service == .lockdown)) && !s.mute

/-- The characters of a telegram take the line for ten bit times each (R74). -/
def TxEntry.airTime (t : TxEntry) : Nat := Config.bits (Config.charBits * t.body.length)

/-- The subject of a LINE BUSY notice for a telegram (R78). -/
def TxEntry.subject (t : TxEntry) : Nat :=
  match t.endNo with
  | some e => endSubject e
  | none => 0

/-- A telegram is an OPEN. -/
def Telegram.isOpen : Telegram → Bool
  | .opening _ => true
  | _ => false

/-- A queued telegram is an OPEN ACK for an end. -/
def TxEntry.isAckOf (t : TxEntry) (e : EndNo) : Bool :=
  match t.body with
  | .openAck _ => t.endNo == some e
  | _ => false

/-- An owed telegram whose transmission has succeeded is no longer owed: the mark stands on while the owed
one waits to be offered, or still stands in the queue behind an older one of its kind (R86). -/
def Owed.sent (o : Option Owed) (later : Bool) : Option Owed :=
  match o with
  | some w => if w.due.isNone && !later then none else some w
  | none => none

/-- The owed mark after a telegram's transmission has succeeded and it has left the queue (R86). -/
def State.unowe (s : State) (t : TxEntry) : State :=
  match t.body, t.endNo with
  | .opening _, _ => s.updLine fun u =>
      { u with owedOpen := Owed.sent u.owedOpen (u.queue.any (·.body.isOpen)) }
  | .openAck _, some e => s.updLineEnd e fun x =>
      { x with owedAck := Owed.sent x.owedAck (s.line.queue.any (·.isAckOf e)) }
  | _, _ => s

/-- The head telegram's eighth attempt has collided: it is discarded, with LINE BUSY and the effect
given for its kind (R78). -/
def State.discardHead (s : State) (t : TxEntry) : State :=
  let s := s.updLine fun u => { u with queue := u.queue.tail, attempt := 0 }
  ((s.notify .lineBusy t.subject).requestLost t).oweLost t

/-! ## Bits (R74, R77) -/

/-- One character on the line: the start bit 0, eight data bits, least significant first, and the stop
bit 1. -/
def charLine (b : Byte) : List Bool := false :: (List.range 8).map b.getLsbD ++ [true]

/-- A run of characters with no idle time between them (R74). -/
def lineBits (cs : List Byte) : List Bool := cs.flatMap charLine

/-- The places, from 0, at which a run of bits holds a 1. -/
def onesOf (bs : List Bool) : List Nat := (List.range bs.length).filter fun i => bs.getD i false

/-- The bits of a telegram as this station sends it. -/
def State.sentBits (s : State) (t : TxEntry) : List Bool :=
  lineBits (t.body.chars ⟨t.dst, s.cfg.address.val⟩)

/-- The bit of a transmission at which a 0 is read back where a 1 was sent (R77): a free choice among the
bits that the telegram sends as 1 (log entry 42). -/
def State.collisionBit (s : State) (x : Sending) : Nat :=
  let ones := onesOf (s.sentBits x.entry)
  ones.getD (Config.collisionBit x.began % ones.length) 0

/-- The characters heard are the telegram that went on when this station's transmission was cut off: they
have the bits sent before the collision, and a 0 where it was read back (R77). -/
def CutOff.wonBy (x : CutOff) (cs : List Byte) : Bool := x.bits.isPrefixOf (lineBits cs)

/-! ## Hearing (R74, R83) -/

/-- The idle gap after characters that have passed on the line (R74): they are counted from the last idle
gap, or, where they are the telegram that went on at a collision, from the moment at which this station
began with it (DEDUCED, log entry 12). -/
def State.gapAfter (s : State) (cs : List Byte) : Nat :=
  let from_ :=
    match s.line.cut with
    | some x => if x.wonBy cs then x.began else s.line.idleAt
    | none => s.line.idleAt
  from_ + Config.bits (Config.charBits * cs.length + 20)

/-- Characters have passed on the line, up to the idle gap after them (R74). -/
def State.hears (s : State) (cs : List Byte) : State :=
  let t := s.reach (s.gapAfter cs)
  t.updLine fun u => { u with idleAt := t.clock, cut := none }

/-- The source of a telegram that is for this station, from another station (R83). -/
def State.sourceOf (s : State) (h : Header) : Option Addr :=
  if h.dst = 0 ∨ h.dst = s.cfg.address.val then
    if hs : h.src < 16 then
      if 1 ≤ h.src ∧ h.src ≠ s.cfg.address.val then some ⟨h.src, hs⟩ else none
    else none
  else none

/-- A received telegram is judged by R83, every check but the addresses passed: a clash of addresses, discarded,
or taken, its reads verified and handed on. The line unit's reads of the own address and of the sender's station
record are of an operation that R140 does not name, taken as SECTION UPDATE (DESIGN CHOICE, log entry 44). -/
def State.receive (s0 : State) (h : Header) (t : Telegram) (reads : Addr → List RecordId)
    (act : State → Addr → State) : State :=
  if s0.power == .held || s0.line.sending.isSome then s0
  else
    let s := s0.hears (t.chars h)
    if !s.working || s.mute || !t.fits then s
    else
      let s := s.verify .sectionUpdate [.fixed .station]
      if !s.working || s.mute then s.react s0
      else if h.src = s.cfg.address.val then (s.notify .addressClash h.src).react s0
      else
        match s.sourceOf h with
        | none => s.react s0
        | some a =>
          let s := s.verify .sectionUpdate (.stationRec a :: reads a)
          (if s.working then act s a else s).react s0

/-- A telegram from a station marked as in LOCKDOWN that clears no mark is discarded (R88). -/
def State.unlessMarked (s : State) (a : Addr) (act : State → State) : State :=
  if (s.stationRec a).lockdown then s else act s

/-- A telegram naming a section id is used at the end that this station configures for it with the
sender (R84). -/
def State.atSection (s : State) (a : Addr) (id : Nat) (act : State → EndNo → EndCfg → State) :
    State :=
  s.unlessMarked a fun s =>
    match s.endWith id a.val with
    | some e =>
      match s.endCfg e with
      | some c => act s e c
      | none => s
    | none => s

/-- The records of a section end that the section unit reads for a telegram taken (R140), with those of the
settlement it may bring. -/
def State.telegramReads (s : State) (e : EndNo) : List RecordId :=
  [.fixed (.sectionEnd e), .sectionRec e, .mirror e, .freshness e, .release e, .demand e, .offer e,
   .outstanding e] ++ s.settleReads e

/-- The records read at the end of a section id. -/
def State.sectionReads (s : State) (id : Nat) (a : Addr) : List RecordId :=
  match s.endWith id a.val with
  | some e => s.telegramReads e
  | none => []

/-- The records read at every section shared with a station. -/
def State.sharedReads (s : State) (a : Addr) : List RecordId :=
  (s.endsWith a).flatMap s.telegramReads

/-! ## Freshness and reports (R87, R88, R90) -/

/-- The state an END REPORT gives a subscription entry of its sender (R90): the first that it lists for the
channel (DESIGN CHOICE, log entry 67). -/
def ReportMsg.trackState (m : ReportMsg) (c : ChanNo) : TrackState :=
  match m.tracks.find? fun t => t.1 == c with
  | some t => t.2
  | none => .failed

/-- A used subscription entry naming the sender is written, unless its static part is poisoned
(R90). -/
def State.writeSub (s : State) (a : Addr) (m : ReportMsg) (i : SubNo) : State :=
  match look s.cfg.subs i with
  | some c =>
    if c.publisher == a && !s.badStatic (.sub i) then
      s.updSub i fun _ => ⟨m.trackState c.channel, some s.clock⟩
    else s
  | none => s

/-- The far status at an owner from an END REPORT's line for the section (R93): the first that it lists for it
(DESIGN CHOICE, log entry 67). -/
def State.writeFar (s : State) (m : ReportMsg) (e : EndNo) : State :=
  match s.endCfg e with
  | some c =>
    if c.owner then
      match m.ends.find? fun l => l.section_ == c.section_ with
      | some l => s.updView e fun v =>
          { v with farStatus := some ⟨l.commutator, l.release, l.releaseNo, l.proofComplete⟩ }
      | none => s
    else s
  | none => s

/-- An END REPORT taken and used (R87, R90, R93). -/
def State.takeReport (s : State) (a : Addr) (m : ReportMsg) : State :=
  if (s.stationRec a).lockdown then
    if m.service == .lockdown then s else s.updStation a fun r => { r with lockdown := false }
  else
    let s := s.updStation a fun r =>
      { r with reportAt := some s.clock, fresh := true, service := some m.service }
    (s.each allSubs fun s i => s.writeSub a m i).each (s.endsWith a) fun s e => s.writeFar m e

/-- A FAILED taken (R88, R118). -/
def State.takeFailed (s : State) (a : Addr) : State :=
  s.unlessMarked a fun s =>
    let s := (s.updStation a fun r => { r with lockdown := true }).stationStale a
    let s := s.each (s.endsWith a) fun s e => s.mirrorStale e
    s.each (s.endsWith a) fun s e =>
      match s.endCfg e with
      | some c => if c.owner then s else s.ownerRestarted e c
      | none => s

/-! ## Opening (R116) -/

/-- The digests match: the OPEN lists the section with the same digest and the other role (R116). -/
def State.openMatches (s : State) (c : EndCfg) (es : List OpenEntry) : Bool :=
  es.any fun x =>
    x.section_ == c.section_ && x.digest == sectionDigest s.cfg.address c && x.owner == !c.owner

/-- The peer restart rules at one shared end (R118, R119). -/
def State.peerRestart (s : State) (e : EndNo) : State :=
  match s.endCfg e with
  | some c => if c.owner then s.farRestarted e c else s.ownerRestarted e c
  | none => s

/-- An owner's digest match is set (R116). -/
def State.setDigest (s : State) (e : EndNo) (ok : Bool) : State :=
  s.updView e fun v => { v with digest := if ok then .yes else .no }

/-- One shared end is judged against an OPEN, and its OPEN ACK offered (R116). -/
def State.judgeOpen (s : State) (es : List OpenEntry) (e : EndNo) : State :=
  match s.endCfg e with
  | some c =>
    let ok := s.openMatches c es
    let s := if c.owner then s.setDigest e ok else s
    let s := if ok then s else s.notify .digestMismatch (endSubject e)
    s.offerAck e ok none
  | none => s

/-- An OPEN taken (R88, R116): the mark cleared, the peer restart rules, then the judgement. -/
def State.takeOpen (s : State) (a : Addr) (es : List OpenEntry) : State :=
  let s := s.updStation a fun r => { r with lockdown := false }
  let s := s.each (s.endsWith a) fun s e => s.peerRestart e
  s.each (s.endsWith a) fun s e => s.judgeOpen es e

/-- The mirror that an OPEN ACK leaves at the opener: the owner's state and direction, class absent, and the
local obstruction flag CLEAR where the mirror becomes CLOSED (R115, R116). -/
def View.acked (v : View) (m : AckMsg) : View :=
  { v with
    state := m.state, dir := m.dir, cls := none
    localObs := if m.state == .closed && v.state != .closed then .clear else v.localObs }

/-- The mirror takes the owner's state and direction from an OPEN ACK, class absent and freshness untouched
(R116). -/
def State.mirrorAck (s : State) (e : EndNo) (c : EndCfg) (m : AckMsg) : State :=
  if s.working then s.changeView e c ((s.view e).acked m) false else s

/-- An OPEN ACK taken (R116): the owner's digest match, or the opener's mirror, the first proving track
read where an arrival proof begins. -/
def State.takeAck (s : State) (e : EndNo) (c : EndCfg) (m : AckMsg) : State :=
  if c.owner then
    let s := s.setDigest e m.digestsMatch
    if m.digestsMatch then s else s.notify .digestMismatch (endSubject e)
  else (s.proofVerify c (s.view e) ((s.view e).acked m)).mirrorAck e c m

/-! ## Meanings: sending -/

/-- When the line unit begins to send after a wait from the idle gap: at the wait's end, or, where that has
passed already, at the next bit boundary, the bits counted from the idle gap (R76). -/
def beginAt (now idleAt wait : Nat) : Nat :=
  let t := idleAt + Config.bits wait
  if now ≤ t then t else t + (now - t + 4) / 5 * 5

/-- The head telegram takes the line (R76). -/
def State.beginSending (s : State) : State :=
  match s.line.queue with
  | t :: _ =>
    if s.transmits then
      let u := s.reach
        (beginAt s.clock s.line.idleAt (waitBits s.cfg.address.val s.line.attempt))
      u.updLine fun l => { l with sending := some ⟨t, u.clock, false⟩, cut := none }
    else s
  | [] => s

/-- TRANSMIT_START (R76): the wait after the idle gap has passed with the line at 1. The station's address
and the queue are read for it. -/
def execTransmitStart (s : State) : Host.Outcome State Fault Refusal :=
  .next <|
    match s.line.queue with
    | _ :: _ =>
      if s.transmits && s.line.sending.isNone then
        s.quietly .telegramBuild placeReads State.beginSending
      else s
    | [] => s

/-- The head telegram's attempt has collided: it stays at the head with one attempt more, or is discarded
at the eighth (R77, R78). -/
def State.failAttempt (s : State) (t : TxEntry) : State :=
  if s.line.attempt + 1 < Config.maxAttempts then
    s.updLine fun l => { l with attempt := l.attempt + 1 }
  else s.discardHead t

/-- Driving stops at a bit of the transmission, the bits up to it are kept, and the idle gap is reckoned
from that bit (R77). -/
def State.stopDriving (s : State) (x : Sending) (bit : Nat) : State :=
  s.updLine fun l =>
    { l with
      sending := none
      idleAt := s.clock + Config.idleGap
      cut := some ⟨x.began, (s.sentBits x.entry).take bit ++ [false]⟩ }

/-- A collision at a bit, the queue read: the attempt has failed, unless the queue was found damaged, which
has cut the transmission off (R77, R80). -/
def State.collided (s : State) (x : Sending) (t : TxEntry) (bit : Nat) : State :=
  if s.line.sending.isSome then (s.stopDriving x bit).failAttempt t else s.stopDriving x bit

/-- The records that the section unit reads as a telegram is lost: for a REQUEST, the view that holds it
pending, and those of its settlement (R78, R140). -/
def State.lostReads (s : State) (t : TxEntry) : List RecordId :=
  match t.body, t.endNo with
  | .request _, some e => s.viewReads e ++ s.settleReads e
  | _, _ => []

/-- The transmission collides at a bit of it, from 0 (R77); an attempt that is the head's eighth changes
records of other blocks, and closes the event. -/
def State.collideAt (s : State) (x : Sending) (t : TxEntry) (bit : Nat) : State :=
  let u := s.reach (x.began + Config.bits bit)
  if s.line.attempt + 1 < Config.maxAttempts then
    u.quietly .telegramBuild [.queue] fun u => u.collided x t bit
  else
    let u := (u.verify .telegramBuild [.queue]).verify .sectionUpdate (u.lostReads t)
    (u.collided x t bit).react s

/-- COLLISION (R77, R78). -/
def execCollision (s : State) : Host.Outcome State Fault Refusal :=
  .next <|
    match s.line.sending, s.line.queue with
    | some x, t :: _ => s.collideAt x t (s.collisionBit x)
    | _, _ => s

/-- The transmission has succeeded, the queue read: the telegram leaves it unless its content was replaced
meanwhile (R79). Where the queue was found damaged the transmission has been cut off instead (R80). -/
def State.succeed (s : State) (x : Sending) : State :=
  if s.line.sending.isSome then
    (s.updLine fun l =>
      { l with
        sending := none
        attempt := 0
        idleAt := s.clock + Config.idleGap
        queue := if x.replaced then l.queue else l.queue.tail }).unowe x.entry
  else s

/-- TRANSMIT_SUCCESS (R79): the last stop bit is read back. -/
def execTransmitSuccess (s : State) : Host.Outcome State Fault Refusal :=
  .next <|
    match s.line.sending with
    | some x =>
      (s.reach (x.began + x.entry.airTime)).quietly .telegramBuild [.queue] fun u => u.succeed x
    | none => s

/-! ## Meanings: refreshes and owed telegrams -/

/-- SECTION_STATE_REFRESH (R85): 2 s after the last offer for an owned section. -/
def execSectionStateRefresh (e : EndNo) (s : State) : Host.Outcome State Fault Refusal :=
  .next <|
    if s.working && s.ownedEnds.contains e then
      let t := (s.reach ((s.lineEnd e).offeredAt + Config.refreshPeriod)).verify .telegramBuild
        (s.stateReads e)
      (t.offerSectionState e).react s
    else s

/-- END_REPORT_REFRESH (R85): 2 s after the last END REPORT offer. -/
def execEndReportRefresh (s : State) : Host.Outcome State Fault Refusal :=
  .next <|
    if s.working then
      let t := (s.reach (s.line.reportAt + Config.refreshPeriod)).verify .telegramBuild s.reportReads
      t.offerEndReport.react s
    else s

/-- ANSWER_ECHO_EXPIRY (R85): 4 s after the answer. -/
def execAnswerEchoExpiry (e : EndNo) (s : State) : Host.Outcome State Fault Refusal :=
  .next <|
    match (s.lineEnd e).echo with
    | some x =>
      if s.working then
        (s.reach (x.answeredAt + Config.requestTimeout)).updLineEnd e fun l =>
          { l with echo := none }
      else s
    | none => s

/-- An owed OPEN is offered again, the mark kept (R86). -/
def State.reofferOpen (s : State) : State :=
  match s.line.owedOpen with
  | some ⟨some _, _⟩ => s.offerOpen (some ⟨none, true⟩)
  | _ => s

/-- An owed OPEN ACK is offered again, the mark kept (R86). -/
def State.reofferAck (s : State) (e : EndNo) : State :=
  match (s.lineEnd e).owedAck with
  | some ⟨some _, ok⟩ => s.offerAck e ok (some ⟨none, ok⟩)
  | _ => s

/-- OWED_REOFFER (R86): 2 s after its refusal or discard, built afresh. -/
def execOwedReoffer (w : OwedItem) (s : State) : Host.Outcome State Fault Refusal :=
  .next <|
    if !s.working then s
    else
      match w with
      | .opening =>
        match s.line.owedOpen with
        | some ⟨some due, _⟩ =>
          (s.reach due).quietly .telegramBuild (placeReads ++ s.endStatics) State.reofferOpen
        | _ => s
      | .ack e =>
        match (s.lineEnd e).owedAck with
        | some ⟨some due, _⟩ =>
          (s.reach due).quietly .telegramBuild (s.stateReads e) fun s => s.reofferAck e
        | _ => s

/-- END_REPORT_STALE (R87, R120): 6 s without an END REPORT from a station, whose record is read, and the shared
ends at which STALE is raised. The operation of its reads is SECTION UPDATE (DESIGN CHOICE, log entry 44). -/
def execEndReportStale (a : Addr) (s : State) : Host.Outcome State Fault Refusal :=
  .next <|
    match (s.stationRec a).reportAt with
    | some t =>
      if s.working && (s.stationRec a).fresh then
        let u := (s.reach (t + Config.staleTime)).verify .sectionUpdate
          (.stationRec a :: s.sharedStatics a)
        (if u.working then u.stationStale a else u).react s
      else s
    | none => s

/-- SECTION_STATE_STALE (R87, R120): 6 s without a SECTION STATE for a section. The operation of its reads
is SECTION UPDATE (DESIGN CHOICE, log entry 44). -/
def execSectionStateStale (e : EndNo) (s : State) : Host.Outcome State Fault Refusal :=
  .next <|
    match (s.lineEnd e).stateAt with
    | some t =>
      if s.working && (s.lineEnd e).fresh then
        let u := (s.reach (t + Config.staleTime)).verify .sectionUpdate
          (s.viewReads e ++ s.settleReads e)
        (if u.working then u.mirrorStale e else u).react s
      else s
    | none => s

/-! ## Meanings: telegrams that the line unit and the bell unit take -/

/-- OPEN_RECEIVED (R84, R88, R116). -/
def execOpenReceived (h : Header) (es : List OpenEntry) (s : State) :
    Host.Outcome State Fault Refusal :=
  .next (s.receive h (.opening es) s.sharedReads fun s a => s.takeOpen a es)

/-- OPEN_ACK_RECEIVED (R116). -/
def execOpenAckReceived (h : Header) (m : AckMsg) (s : State) : Host.Outcome State Fault Refusal :=
  .next (s.receive h (.openAck m) (s.sectionReads m.section_) fun s a =>
    s.atSection a m.section_ fun s e c => s.takeAck e c m)

/-- END_REPORT_RECEIVED (R84, R87, R88, R90). The line unit's reads of the subscriptions are taken as SECTION UPDATE
(DESIGN CHOICE, log entry 44). -/
def execEndReportReceived (h : Header) (m : ReportMsg) (s : State) :
    Host.Outcome State Fault Refusal :=
  .next (s.receive h (.endReport m)
    (fun a => s.sharedReads a ++ allSubs.flatMap fun i => [.fixed (.sub i), .sub i])
    fun s a => s.takeReport a m)

/-- FAILED_RECEIVED (R88, R118). -/
def execFailedReceived (h : Header) (ids : List Nat) (s : State) :
    Host.Outcome State Fault Refusal :=
  .next (s.receive h (.failed ids) s.sharedReads fun s a => s.takeFailed a)

/-- BELL_RECEIVED (R66): the section end is looked up by the line unit (R84), and the bell unit reads its records
in the order of its steps. -/
def execBellReceived (h : Header) (m : BellMsg) (s : State) : Host.Outcome State Fault Refusal :=
  .next (s.receive h (.bell m)
    (fun a => (s.endWith m.section_ a.val).toList.map fun e => .fixed (.sectionEnd e))
    fun s a => s.atSection a m.section_ fun s e c => s.receiveCode e c m)

/-- A telegram that names this station as its source raises ADDRESS CLASH (R83). -/
def State.clash (s : State) (h : Header) : State :=
  if s.working && !s.mute && h.src == s.cfg.address.val then s.notify .addressClash h.src else s

/-- RECEIVED_TELEGRAM_DISCARDED (R83): a good telegram that names this station as its source raises
ADDRESS CLASH; any other is discarded silently. -/
def execReceivedTelegramDiscarded (chars : List Byte) (spoiled : Bool) (s : State) :
    Host.Outcome State Fault Refusal :=
  .next <|
    if s.power == .held || s.line.sending.isSome then s
    else
      let t := s.hears chars
      match parseTelegram chars with
      | some (h, _) =>
        if t.working && !t.mute && !spoiled then
          t.quietly .sectionUpdate [.fixed .station] fun t => t.clash h
        else t
      | none => t

end Sys2Proof.Machine
end

