-- ==== Sys2Proof/Machine/Section.lean ====
section
/-! DEFINITION. The section unit's telegrams and timed events (06_sections_and_block_instruments.md
and 07_switching_out.md): SECTION STATE, REQUEST, ANSWER, deadlines, waits and retries. -/

namespace Sys2Proof.Machine

open Sys2Proof

/-! ## Answers (R100) -/

/-- An ANSWER or answer echo that names the pending request's number settles it, save a TAKEN to an
ACCEPT; after the deadline it is ignored (R100). -/
def State.settleBy (s : State) (e : EndNo) (c : EndCfg) (number : Nat) (o : Outcome) : State :=
  match (s.view e).pending with
  | some p =>
    if p.number != number || p.deadline < s.clock || (p.kind == .accept && o == .taken) then s
    else s.settle e c o
  | none => s

/-! ## SECTION STATE (R95) -/

/-- The mirror that a SECTION STATE replaces (R95). -/
def View.received (v : View) (m : StateMsg) : View :=
  { v with state := m.state, dir := m.dir, acc := m.acc, cls := m.cls, obstruction := m.obstruction,
           ownerFault := m.ownerFault }

/-- The demand that an entry to CLEAR on a through accepting end is for: that end's, WAITING, while
OUT (R130). -/
def State.waitingDemand (s : State) (e : EndNo) : Option EndNo :=
  match s.throughRearOf e with
  | some r =>
    if s.switch.state == .out && (s.demand r).any (fun d => d.state == .waiting) then some r else none
  | none => none

/-- An ACCEPT is pending at an end. -/
def View.acceptPending (v : View) : Bool := (v.pending.map fun p => p.kind == .accept).getD false

/-- The pending ACCEPT is settled as taken by the view (R103). -/
def View.acceptTaken (v : View) : View := if v.acceptPending then { v with pending := none } else v

/-- The records that tell which demand an acceptance shown is for: the switch record, the through pair, and the
demand of the rear end of the pair (R130). -/
def State.shownByReads (s : State) (e : EndNo) : List RecordId :=
  .switch :: s.pairReads e ++ (s.throughRearOf e).toList.map .demand

/-- What a mirror's entry to CLEAR toward this end is for: a WAITING demand, an ACCEPT asked for by the
commutator, which stands at CLEAR still, or nothing, and it is unwanted (R103, R113, R130). -/
def State.judgeAcceptance (s : State) (e : EndNo) (c : EndCfg) (asked : Bool) : State :=
  match s.waitingDemand e with
  | some r => (s.consumeOffer e).demandAccepted r (s.view e).acc
  | none =>
    if asked && (s.comm e).pos == .clear then s.consumeOffer e
    else (s.updView e fun v => { v with autoCancel := true }).attemptCancel e c

/-- A mirror came to show CLEAR toward this end under a new acceptance number (R103, R113, R130). A demand
ACCEPTED under the number before is ACCEPTED still when the new one is judged, and returns to WAITING as the
event closes, so that the new one is taken as unwanted: no rule says which is judged first (DESIGN CHOICE,
log entry 49). -/
def State.acceptanceShown (s : State) (e : EndNo) (c : EndCfg) : State :=
  let asked := (s.view e).acceptPending
  let s := (s.updView e View.acceptTaken).verify .sectionUpdate (s.shownByReads e)
  if s.working then s.judgeAcceptance e c asked else s

/-- The local obstruction flag after a SECTION STATE (R115). -/
def localAfter (l : LocalObs) (m : StateMsg) (closes : Bool) : LocalObs :=
  if closes then .clear
  else
    match l, m.obstruction with
    | .set, true => .setSeen
    | .setSeen, false => .clear
    | l, _ => l

/-- The mirror and its freshness as a SECTION STATE replaces them (R95), before the steps of the event. -/
def State.replaceMirror (s : State) (e : EndNo) (c : EndCfg) (m : StateMsg) : State :=
  (s.putFields e c ((s.view e).received m)).updLineEnd e fun x =>
    { x with stateAt := some s.clock, fresh := true }

/-- Step 1 of R95: an answer echo settles the pending request of its number. -/
def State.settleEcho (s : State) (e : EndNo) (c : EndCfg) (m : StateMsg) : State :=
  match m.echo with
  | some x => s.settleBy e c x.number x.outcome
  | none => s

/-- Step 2 of R95: an entry to CLEAR toward this end under a new number. -/
def State.judgeShown (s : State) (e : EndNo) (c : EndCfg) (old : View) : State :=
  let v := s.view e
  if v.shows .clear c.toHere && !old.clearUnder v.acc then s.acceptanceShown e c else s

/-- Step 5 of R95: the local obstruction flag. -/
def State.judgeLocal (s : State) (e : EndNo) (m : StateMsg) (old : View) : State :=
  s.updView e fun v =>
    { v with localObs := localAfter v.localObs m (m.state == .closed && old.state != .closed) }

/-- Step 6 of R95: the changes are registered (R94). An OCCUPIED entry of a far end never has the automatic flag,
since a SECTION STATE does not carry the cause (DESIGN CHOICE, log entry 70). -/
def State.registerShown (s : State) (e : EndNo) (c : EndCfg) (m : StateMsg) (old : View) : State :=
  s.registerView c old (s.view e) ((old.proof.map (·.auto)).getD false && m.state == .blocked)

/-- A SECTION STATE taken at the far end: the mirror replaced and fresh, then the steps of R95 in
order. -/
def State.takeState (s : State) (e : EndNo) (c : EndCfg) (m : StateMsg) : State :=
  if c.owner then s
  else
    let old := s.view e
    let s := (((s.replaceMirror e c m).settleEcho e c m).judgeShown e c old).judgeRelease e c old
    let s := s.proofVerify c old (s.view e)
    ((s.judgeProof e c old).judgeLocal e m old).registerShown e c m old

/-! ## REQUEST (R101) -/

/-- The refusal of a request before the rules for its kind (R101). -/
def State.requestBarred (s : State) (e : EndNo) (k : ReqKind) : Option Reason :=
  if s.badStatic (.sectionEnd e) then some .fault
  else if k == .cancel then none
  else
    match s.service with
    | .proving => some .notInService
    | .restrictive => some .fault
    | _ => none

/-- The rear end's decision of a CANCEL on its release record and demand (R112, R131). -/
def State.cancelRefusal (s : State) (e : EndNo) : Option Reason :=
  let r := s.release e
  match r.state with
  | .none | .available => none
  | .consumed =>
    match s.demand e with
    | some d => if d.state == .waiting then none else some .releaseUsed
    | none =>
      match r.normalAt with
      | some t => if t + Config.cancelLock ≤ s.clock then none else some .releaseUsed
      | none => some .releaseUsed

/-- The owner's release lever is NORMAL, a check left out for a through rear end while OUT (R104,
R127). -/
def State.releaseLeverFree (s : State) (e : EndNo) (c : EndCfg) : Bool :=
  (s.switch.state == .out && s.isThroughRear e) || (c.releaseLever.map s.atNormal).getD false

/-- The checks of the rule for the request's kind (R104, R107, R110, R112); a far end decides CANCEL
alone (R101). -/
def State.requestRefusal (s : State) (e : EndNo) (c : EndCfg) (k : ReqKind) : Option Reason :=
  let v := s.view e
  match k, c.owner with
  | .cancel, false => s.cancelRefusal e
  | .cancel, true => if v.shows .clear .outward then s.cancelRefusal e else some .notBlocked
  | _, false => some .notBlocked
  | .accept, true =>
    firstFailing [(c.kind == .twoWay, .notBlocked), (v.state == .blocked, .notBlocked),
      (!v.obstruction, .obstruction), (s.releaseLeverFree e c, .releaseHeld),
      (v.pending.isNone, .requestPending)]
  | .occupy, true => if v.shows .clear .outward then none else some .notBlocked
  | .arrived, true => if v.shows .occupied .outward then none else some .notBlocked

/-- The effect of a request taken (R104, R107, R110, R112). Its entry has the automatic flag clear, since a REQUEST
does not carry the cause (DESIGN CHOICE, log entry 70). -/
def State.grantRequest (s : State) (e : EndNo) (c : EndCfg) (k : ReqKind) (cls : Nat) : State :=
  let v := s.view e
  match k with
  | .accept => (s.changeView e c (v.toClear .outward cls) false).judgeRelease e c v
  | .occupy => s.changeView e c v.toOccupied false
  | .arrived => s.changeView e c v.toBlocked false
  | .cancel =>
    let s := s.setRelease e Release.none
    if c.owner then s.changeView e c v.toBlocked false else s

/-- A decision is answered: the ANSWER offered, and the echo kept by an owner (R85, R101). The echo is kept where
the queue refuses the ANSWER too: R85 speaks of a request answered, and no rule says that one whose ANSWER is
lost is not (DESIGN CHOICE, log entry 56). -/
def State.answer (s : State) (e : EndNo) (c : EndCfg) (number : Nat) (o : Outcome) : State :=
  let t := s.offerAnswer e c number o
  if c.owner then t.updLineEnd e fun x => { x with echo := some ⟨⟨number, o⟩, s.clock⟩ } else t

/-- What a decision changes, once it is answered: nothing where the reads of the ANSWER have brought LOCKDOWN,
in which the section unit has stopped (DESIGN CHOICE, log entry 54). The REFUSED entry has the automatic flag clear,
since a REQUEST does not say that an auto-acceptance or an automatic arrival made it (DESIGN CHOICE, log entry
70). -/
def State.applyDecision (s : State) (e : EndNo) (c : EndCfg) (m : RequestMsg) (refusal : Option Reason) :
    State :=
  if !s.working then s
  else
    match refusal with
    | some r => s.registerRefused c r false
    | none => s.grantRequest e c m.kind m.cls

/-- A REQUEST is decided at once on the records as they stand and answered, the ANSWER offered before what
the decision changes (R101). -/
def State.decideRequest (s : State) (e : EndNo) (c : EndCfg) (m : RequestMsg) : State :=
  let refusal :=
    match s.requestBarred e m.kind with
    | some r => some r
    | none => s.requestRefusal e c m.kind
  (s.answer e c m.number ((refusal.map Outcome.refused).getD .taken)).applyDecision e c m refusal

/-- The further records that the decision of a request reads: for an ACCEPT, the release lever, the switch
record and the through pair (R104, R127). -/
def State.requestReads (s : State) (e : EndNo) (c : EndCfg) (k : ReqKind) : List RecordId :=
  match k with
  | .accept => s.grantReads e c
  | .occupy | .arrived | .cancel => []

/-- A REQUEST taken: the records its decision reads verified, and decided (R101). Damage found by these reads is
taken before the decision (DESIGN CHOICE, log entry 73). -/
def State.takeRequest (s : State) (e : EndNo) (c : EndCfg) (m : RequestMsg) : State :=
  let s := s.verify .sectionUpdate (s.requestReads e c m.kind)
  if s.working then s.decideRequest e c m else s

/-! ## Meanings: telegrams -/

/-- SECTION_STATE_RECEIVED (R95). -/
def execSectionStateReceived (h : Header) (m : StateMsg) (s : State) :
    Host.Outcome State Fault Refusal :=
  .next (s.receive h (.sectionState m) (s.sectionReads m.section_) fun s a =>
    s.atSection a m.section_ fun s e c => s.takeState e c m)

/-- REQUEST_RECEIVED (R101). -/
def execRequestReceived (h : Header) (m : RequestMsg) (s : State) :
    Host.Outcome State Fault Refusal :=
  .next (s.receive h (.request m) (s.sectionReads m.section_) fun s a =>
    s.atSection a m.section_ fun s e c => s.takeRequest e c m)

/-- ANSWER_RECEIVED (R100). -/
def execAnswerReceived (h : Header) (m : AnswerMsg) (s : State) : Host.Outcome State Fault Refusal :=
  .next (s.receive h (.answer m) (s.sectionReads m.section_) fun s a =>
    s.atSection a m.section_ fun s e c => s.settleBy e c m.number m.outcome)

/-! ## Meanings: timed events -/

/-- An event at a section end's view at its moment: the view's records are verified, and the section unit
acts while it takes events (R122, R137). -/
def State.endMoment (s : State) (at_ : Nat) (e : EndNo) (act : State → State) : State :=
  let u := (s.reach at_).verify .sectionUpdate (s.viewReads e ++ s.settleReads e)
  (if u.working then act u else u).react s

/-- REQUEST_LAPSE (R100): a pending request's deadline passes. -/
def execRequestLapse (e : EndNo) (s : State) : Host.Outcome State Fault Refusal :=
  .next <|
    match (s.view e).pending with
    | some p => if s.working then s.endMoment p.deadline e fun s => s.lapse e else s
    | none => s

/-- The release wait runs out: the second ARRIVAL RELEASE entry, and the proof complete (R109). The
entry stands before that of the automatic arrival which the complete proof brings in the same event (R132): no
rule orders the two (DESIGN CHOICE, log entry 8). -/
def State.endReleaseWait (s : State) (e : EndNo) : State :=
  match s.endCfg e, (s.view e).proof with
  | some c, some _ => (s.register (viewEntry c (s.view e) .arrivalRelease true)).completeProof e c
  | _, _ => s

/-- ARRIVAL_RELEASE_WAIT_END (R109). -/
def execArrivalReleaseWaitEnd (e : EndNo) (s : State) : Host.Outcome State Fault Refusal :=
  .next <|
    match (s.view e).proof.bind (·.waitUntil) with
    | some t => if s.working then s.endMoment t e fun s => s.endReleaseWait e else s
    | none => s

/-- AUTO_CANCEL_RETRY (R113): made again, or left to the settlement of another pending request. -/
def execAutoCancelRetry (e : EndNo) (s : State) : Host.Outcome State Fault Refusal :=
  .next <|
    match (s.view e).cancelRetry, s.endCfg e with
    | some t, some c =>
      if s.working then
        s.endMoment t e fun s =>
          (s.updView e fun v => { v with cancelRetry := none }).attemptCancel e c
      else s
    | _, _ => s

/-- DEMAND_RETRY (R129): at a WAITING demand's retry time, which becomes absent; the demand is verified by
the read. -/
def execDemandRetry (e : EndNo) (s : State) : Host.Outcome State Fault Refusal :=
  .next <|
    match (s.demand e).bind (·.retryAt) with
    | some t =>
      if s.working then
        let u := (s.reach t).verify .sectionUpdate [.demand e, .switch]
        ((u.updDemand e fun d => { d with retryAt := none }).attemptAcceptance e).react s
      else s
    | none => s

/-- AUTO_ARRIVAL_RETRY (R132): a waiting automatic arrival is attempted again. -/
def execAutoArrivalRetry (e : EndNo) (s : State) : Host.Outcome State Fault Refusal :=
  .next <|
    match (s.view e).proof.bind (·.retryAt), s.endCfg e with
    | some t, some c =>
      if s.working then
        s.endMoment t e fun s =>
          (s.updProof e fun p => { p with retryAt := none }).attemptArrival e c
      else s
    | _, _ => s

end Sys2Proof.Machine
end

