-- ==== Sys2Proof/Machine/Dispatch.lean ====
section
/-! DEFINITION. The meaning of every command and event of the table, one arm for each. -/

namespace Sys2Proof.Machine

open Sys2Proof

def exec (i : Instr) (s : State) : Host.Outcome State Fault Refusal :=
  match i with
  | .powerOnReset => Sys2Proof.Machine.execPowerOnReset s
  | .resetPinAssert => Sys2Proof.Machine.execResetPinAssert s
  | .memoryTestEnd p => Sys2Proof.Machine.execMemoryTestEnd p s
  | .trackSample c x => Sys2Proof.Machine.execTrackSample c x s
  | .referenceUpdate c n => Sys2Proof.Machine.execReferenceUpdate c n s
  | .dropConfirmed c n => Sys2Proof.Machine.execDropConfirmed c n s
  | .pickupConfirmed c n => Sys2Proof.Machine.execPickupConfirmed c n s
  | .highValueFailure c n => Sys2Proof.Machine.execHighValueFailure c n s
  | .converterFailure c => Sys2Proof.Machine.execConverterFailure c s
  | .channelSettled c x => Sys2Proof.Machine.execChannelSettled c x s
  | .frameScan x => Sys2Proof.Machine.execFrameScan x s
  | .takenChange x => Sys2Proof.Machine.execTakenChange x s
  | .timerExpiry t => Sys2Proof.Machine.execTimerExpiry t s
  | .outputReadback n => Sys2Proof.Machine.execOutputReadback n s
  | .lockNotEnergized n => Sys2Proof.Machine.execLockNotEnergized n s
  | .selfCheck x => Sys2Proof.Machine.execSelfCheck x s
  | .codeEnd e => Sys2Proof.Machine.execCodeEnd e s
  | .stuckKey e => Sys2Proof.Machine.execStuckKey e s
  | .holdOffEnd e => Sys2Proof.Machine.execHoldOffEnd e s
  | .offerOutstandingExpiry e => Sys2Proof.Machine.execOfferOutstandingExpiry e s
  | .offerRecordExpiry e => Sys2Proof.Machine.execOfferRecordExpiry e s
  | .bellStrokeStart => Sys2Proof.Machine.execBellStrokeStart s
  | .bellStrokeEnd => Sys2Proof.Machine.execBellStrokeEnd s
  | .transmitStart => Sys2Proof.Machine.execTransmitStart s
  | .collision => Sys2Proof.Machine.execCollision s
  | .transmitSuccess => Sys2Proof.Machine.execTransmitSuccess s
  | .openReceived h es => Sys2Proof.Machine.execOpenReceived h es s
  | .openAckReceived h m => Sys2Proof.Machine.execOpenAckReceived h m s
  | .sectionStateReceived h m => Sys2Proof.Machine.execSectionStateReceived h m s
  | .endReportReceived h m => Sys2Proof.Machine.execEndReportReceived h m s
  | .requestReceived h m => Sys2Proof.Machine.execRequestReceived h m s
  | .answerReceived h m => Sys2Proof.Machine.execAnswerReceived h m s
  | .bellReceived h m => Sys2Proof.Machine.execBellReceived h m s
  | .failedReceived h ids => Sys2Proof.Machine.execFailedReceived h ids s
  | .sectionStateRefresh e => Sys2Proof.Machine.execSectionStateRefresh e s
  | .endReportRefresh => Sys2Proof.Machine.execEndReportRefresh s
  | .answerEchoExpiry e => Sys2Proof.Machine.execAnswerEchoExpiry e s
  | .owedReoffer w => Sys2Proof.Machine.execOwedReoffer w s
  | .endReportStale a => Sys2Proof.Machine.execEndReportStale a s
  | .sectionStateStale e => Sys2Proof.Machine.execSectionStateStale e s
  | .requestLapse e => Sys2Proof.Machine.execRequestLapse e s
  | .arrivalReleaseWaitEnd e => Sys2Proof.Machine.execArrivalReleaseWaitEnd e s
  | .autoCancelRetry e => Sys2Proof.Machine.execAutoCancelRetry e s
  | .demandRetry e => Sys2Proof.Machine.execDemandRetry e s
  | .autoArrivalRetry e => Sys2Proof.Machine.execAutoArrivalRetry e s
  | .scrubVisit u => Sys2Proof.Machine.execScrubVisit u s
  | .resumePassVisit u => Sys2Proof.Machine.execResumePassVisit u s
  | .timeTick => Sys2Proof.Machine.execTimeTick s
  | .transactionAbort bs => Sys2Proof.Machine.execTransactionAbort bs s
  | .badCommandFrame f => Sys2Proof.Machine.execBadCommandFrame f s
  | .loadBegin => Sys2Proof.Machine.execLoadBegin s
  | .loadRecord k ix ct => Sys2Proof.Machine.execLoadRecord k ix ct s
  | .loadEnd d => Sys2Proof.Machine.execLoadEnd d s
  | .loadEndChecksComplete => Sys2Proof.Machine.execLoadEndChecksComplete s
  | .enterService => Sys2Proof.Machine.execEnterService s
  | .restart => Sys2Proof.Machine.execRestart s
  | .setTime t => Sys2Proof.Machine.execSetTime t s
  | .setCollars m v => Sys2Proof.Machine.execSetCollars m v s
  | .restoreChannel n => Sys2Proof.Machine.execRestoreChannel n s
  | .arrivalRelease n => Sys2Proof.Machine.execArrivalRelease n s
  | .clearSwitchCause => Sys2Proof.Machine.execClearSwitchCause s
  | .repairRecord k ix ct => Sys2Proof.Machine.execRepairRecord k ix ct s
  | .resume => Sys2Proof.Machine.execResume s
  | .readStation => Sys2Proof.Machine.execReadStation s
  | .readSection n => Sys2Proof.Machine.execReadSection n s
  | .readTrack n => Sys2Proof.Machine.execReadTrack n s
  | .readFrame => Sys2Proof.Machine.execReadFrame s
  | .readFault => Sys2Proof.Machine.execReadFault s
  | .noticeRead => Sys2Proof.Machine.execNoticeRead s
  | .registerRead => Sys2Proof.Machine.execRegisterRead s
  | .receivedTelegramDiscarded cs sp => Sys2Proof.Machine.execReceivedTelegramDiscarded cs sp s

end Sys2Proof.Machine
end

