-- ==== Sys2Proof/Safety.lean ====
section
/-! DEFINITION. What counts as a safe state, in the terms that statements use: the laws of the part
that the manual names, as predicates on a state, and the fields that closing an event leaves alone. -/

namespace Sys2Proof.Machine

open Sys2Proof

/-! ## The laws of the part -/

/-- The register and the notice queue within their sizes (R153, R157). -/
abbrev State.RecordsBounded (s : State) : Prop :=
  s.records.register.length ≤ 256 ∧ s.records.notices.length ≤ 32

/-- The commands of a lever's lock and control outputs as R26 and R30 allow them. -/
def State.CommandAllowed (s : State) (n : OutputNo) (l : LeverNo) : Prop :=
  if n.val < 32 then
    (s.service = .inService ∨ s.service = .proving ∧ (s.lever l).position ≠ .normal) ∧
    ((s.lever l).position = .normal →
      (look s.collars l).effective = false ∧ s.combined l .reverse = true) ∧
    ((s.lever l).position = .reverse → s.combined l .normal = true) ∧
    ((s.lever l).position = .mid →
      (∃ k, (s.lever l).stroke = some k ∧ k.hold = true) ∨
      s.service = .proving ∧ (s.lever l).stroke = none ∧ s.combined l .normal = true) ∧
    (s.lever l).position ≠ .unknown
  else
    s.service = .inService ∧ (s.lever l).position = .reverse ∧ s.combined l .control = true ∧
      (s.lever l).latch = false

/-- The law of the outputs (R26, R30): an output commanded energized has a lever that names it, and
that lever's records allow the command. The memory test runs in UNLOADED (R163). -/
def State.OutputLaw (s : State) : Prop :=
  (∀ n : OutputNo, (s.output n).command = true →
    ∃ l, s.cfg.leverOf n = some l ∧ s.CommandAllowed n l) ∧
  (s.power = .testing → s.service = .unloaded)

/-- A coalescing telegram names a section end exactly where it is a SECTION STATE. -/
def TxEntry.keyed (t : TxEntry) : Prop :=
  match t.body with
  | .sectionState _ => t.endNo.isSome = true
  | .endReport _ => t.endNo = none
  | _ => True

/-- The law of the transmit queue (R80): never two SECTION STATE telegrams for one section end, nor
two END REPORT telegrams, and at most nine single telegrams. -/
def State.QueueLaw (s : State) : Prop :=
  ((s.line.queue.filter fun q => q.body.coalesces).map (·.endNo)).Nodup ∧
    (∀ q ∈ s.line.queue, q.keyed) ∧ s.line.singles ≤ 9

/-- The law of R125: the station is switched out only in IN SERVICE, with no section of a through pair
CLOSED. The memory test runs in UNLOADED (R163). -/
def State.SwitchLaw (s : State) : Prop :=
  (s.switchedOut = true →
    s.service = .inService ∧ ∀ e ∈ s.pairEnds, (s.view e).state ≠ .closed) ∧
  (s.power = .testing → s.service = .unloaded)

/-- The law of R93: in every section record the direction is NONE and the class absent exactly when the
state is CLOSED or BLOCKED. -/
def State.SectionLaw (s : State) : Prop :=
  ∀ e c, s.endCfg e = some c → c.owner = true →
    ((s.view e).dir = .none ↔ (s.view e).state = .closed ∨ (s.view e).state = .blocked) ∧
    ((s.view e).cls = none ↔ (s.view e).state = .closed ∨ (s.view e).state = .blocked)

/-- The law of R98, while the section unit takes events: a release is AVAILABLE only while its view is
sound and shows CLEAR toward the neighbour under its number, in IN SERVICE, and CONSUMED only while its
view shows CLEAR under its number, sound or not. -/
def State.ReleaseLaw (s : State) : Prop :=
  s.working = true → ∀ e c, s.endCfg e = some c →
    ((s.release e).state = .available → s.service = .inService ∧ s.sound e = true ∧
      (s.view e).state = .clear ∧ (s.view e).dir = c.away ∧ (s.view e).acc = (s.release e).acc) ∧
    ((s.release e).state = .consumed →
      (s.view e).state = .clear ∧ (s.view e).acc = (s.release e).acc)

/-! ## What closing an event leaves alone -/

/-- A lever without its replacement latch. -/
def Lever.kept (v : Lever) : Lever := { v with latch := false }
/-- An output without its command. -/
def Output.kept (o : Output) : Output := { o with command := false }
/-- A section end's key input and lost flag. -/
def BellEnd.kept (b : BellEnd) : Input × Bool := (b.keyIn, b.lost)
/-- A section end's line records without the time of the last offer. -/
def LineEnd.kept (x : LineEnd) : LineEnd := { x with offeredAt := 0 }
/-- The transmission in progress without its replaced mark. -/
def Sending.kept (x : Sending) : Sending := { x with replaced := false }
/-- The line unit without its queue and the times of its offers. -/
def LineUnit.kept (u : LineUnit) : LineUnit :=
  { u with queue := [], reportAt := 0, sending := u.sending.map Sending.kept
           ends := u.ends.map LineEnd.kept }

/-- What closing an event leaves alone: everything but the service state, the latches and commands of
the levers' outputs, the lanes, the views, releases and demands, the offers and key phases, the queue
of telegrams, the switch record's state and marks, the register and the notices. -/
structure RestFields where
  pending : List Instr
  clock : Nat
  power : Power
  hasConfig : Bool
  cfg : Configuration
  channels : Vector Channel 12
  sampledAt : Vector Nat 12
  levers : Vector Lever 64
  collars : Vector Collar 64
  timers : Vector (Option Nat) 8
  outputs : Vector Output 48
  judged : Bool
  laneErrs : BitVec 80 × BitVec 80
  bells : Vector (Input × Bool) 6
  replay : Replay
  line : LineUnit
  comms : Vector Commutator 6
  keyIn : Input
  integrity : Integrity
  timeOfDay : Nat × Bool
  panel : PanelUnit
  latches : Latches
  scans : Bool × Nat × Nat
  deriving DecidableEq, Repr

/-- The fields that closing an event leaves alone. -/
def State.rest (s : State) : RestFields where
  pending := s.pending
  clock := s.clock
  power := s.power
  hasConfig := s.hasConfig
  cfg := s.cfg
  channels := s.channels
  sampledAt := s.sampledAt
  levers := s.levers.map Lever.kept
  collars := s.collars
  timers := s.timers
  outputs := s.outputs.map Output.kept
  judged := s.judged
  laneErrs := (s.laneErrA, s.laneErrB)
  bells := s.bells.map BellEnd.kept
  replay := s.replay
  line := s.line.kept
  comms := s.ends.map (·.comm)
  keyIn := s.switch.keyIn
  integrity := s.integrity
  timeOfDay := (s.records.time, s.records.timeValid)
  panel := s.panel
  latches := s.latches
  scans := (s.scanned, s.scanAt, s.tickAt)

/-! ## Conditions that statements are made under -/

/-- No record's damage waits to be found: the verifications of an event find nothing. -/
abbrev State.Calm (s : State) : Prop := s.integrity.damaged = []

/-- The line unit hears telegrams and can build its own: working, sending nothing, its address
sound. -/
abbrev State.Listening (s : State) : Prop :=
  s.working = true ∧ s.line.sending = none ∧ s.mute = false ∧ s.Calm

/-- A telegram's addresses: for this station or for all, from another station (R83). -/
abbrev State.ForUs (s : State) (h : Header) (a : Addr) : Prop :=
  (h.dst = 0 ∨ h.dst = s.cfg.address.val) ∧ h.src = a.val ∧ a ≠ 0 ∧ a ≠ s.cfg.address

/-- A section that this station shares with another at an end, the other not marked as in LOCKDOWN
(R84, R88). -/
abbrev State.Shares (s : State) (a : Addr) (id : Nat) (e : EndNo) (c : EndCfg) : Prop :=
  s.endWith id a.val = some e ∧ s.endCfg e = some c ∧ (s.stationRec a).lockdown = false

/-- The record unit after an obstruction has been handed to the section unit at a view: OBSTRUCTION SET is
registered where the owner's flag, or the far end's local flag, was clear (R94, R114, R115). -/
def obstructionNoted (c : EndCfg) (v : View) (r : RecordUnit) : RecordUnit :=
  if (if c.owner then v.obstruction else v.localObs != .clear) then r
  else r.take (EventInfo.ofSection .obstructionSet c.section_)

/-- Own time at the end of characters heard on the line, their idle gap included (R74, R77). -/
def State.heardAt (s : State) (cs : List Byte) : Nat := max s.clock (s.gapAfter cs)

end Sys2Proof.Machine
end

