-- ==== Sys2Proof/WellFormed.lean ====
section
/-! DEFINITION. The operands that the part's four connections can carry: a command is well formed when
its frame or telegram can be sent as section 11.2 and section 11.3 lay them out. `exec` answers an
ill-formed command too; the check says which commands a sender can form. -/

namespace Sys2Proof

open Machine

/-- A telegram's addresses: the destination 0 to 15, the source 1 to 15 (section 11.2). -/
def Machine.Header.wellFormed (h : Header) : Bool := h.dst < 16 && 1 ≤ h.src && h.src < 16

/-- A record in a LOAD RECORD or REPAIR RECORD frame: its kind in one byte, its index in two, and the
whole payload within the frame's length byte (section 11.3). -/
def recordWellFormed (kind index : Nat) (content : List Byte) : Bool :=
  kind < 256 && index < 65536 && content.length < 253

/-- The command's operands lie within what its frame, telegram or event can carry. -/
def Instr.wellFormed (i : Instr) : Bool :=
  match i with
  | .openReceived h es => h.wellFormed && (Telegram.opening es).fits
  | .openAckReceived h m => h.wellFormed && (Telegram.openAck m).fits
  | .sectionStateReceived h m => h.wellFormed && (Telegram.sectionState m).fits
  | .endReportReceived h m => h.wellFormed && (Telegram.endReport m).fits
  | .requestReceived h m => h.wellFormed && (Telegram.request m).fits
  | .answerReceived h m => h.wellFormed && (Telegram.answer m).fits
  | .bellReceived h m => h.wellFormed && (Telegram.bell m).fits
  | .failedReceived h ids => h.wellFormed && (Telegram.failed ids).fits
  | .endReportStale a => a != 0
  | .badCommandFrame f => (readCommand f).isNone
  | .loadRecord k n c => recordWellFormed k n c && contentFits k c
  | .repairRecord k n c => recordWellFormed k n c && repairFits k c
  | .setTime t => t < 16777216
  | .restoreChannel n => n < 256
  | .arrivalRelease n => n < 256
  | .readSection n => n < 256
  | .readTrack n => n < 256
  | .powerOnReset | .resetPinAssert | .memoryTestEnd _ => true
  | .trackSample _ _ | .referenceUpdate _ _ | .dropConfirmed _ _ | .pickupConfirmed _ _ => true
  | .highValueFailure _ _ | .converterFailure _ | .channelSettled _ _ => true
  | .frameScan _ | .takenChange _ | .timerExpiry _ | .outputReadback _ => true
  | .lockNotEnergized _ | .selfCheck _ | .codeEnd _ | .stuckKey _ | .holdOffEnd _ => true
  | .offerOutstandingExpiry _ | .offerRecordExpiry _ | .bellStrokeStart | .bellStrokeEnd => true
  | .transmitStart | .collision | .transmitSuccess | .sectionStateRefresh _ => true
  | .endReportRefresh | .answerEchoExpiry _ | .owedReoffer _ | .sectionStateStale _ => true
  | .requestLapse _ | .arrivalReleaseWaitEnd _ | .autoCancelRetry _ | .demandRetry _ => true
  | .autoArrivalRetry _ | .scrubVisit _ | .resumePassVisit _ | .timeTick => true
  | .transactionAbort _ | .loadBegin | .loadEnd _ | .loadEndChecksComplete => true
  | .enterService | .restart | .setCollars _ _ | .clearSwitchCause | .resume => true
  | .readStation | .readFrame | .readFault | .noticeRead | .registerRead => true
  | .receivedTelegramDiscarded _ _ => true

end Sys2Proof
end

