-- ==== Sys2Proof/Certificates/Slice0/Obligations.lean ====
section
/-! DEFINITION. The statements about the model, for the provers. -/

open Sys2Proof Sys2Proof.Machine

/-! ## The step and the power of the part -/

/-- One step carries out the command at the front of the queue with the queue's rest, and idles on an
empty queue (idling is the model's choice: log entry 1). -/
def Obligations.StepRunsFrontCommand : Prop :=
  ∀ (c : Instr) (cs : List Instr) (s : State),
    step (s.withPending (c :: cs)) = exec c (s.withPending cs) ∧
      step (s.withPending []) = .next (s.withPending [])

/-- POWER_ON_RESET leaves the waiting commands, UNLOADED with the memory test to end, and the records named
here as a reset leaves them; RESET_PIN_ASSERT puts every output latch off, leaves the block line undriven
and NOTICE negated and answers no transaction, and changes nothing else. That the records stand while the
pin is held is the model's choice (log entry 1), and so are the value of own time after a reset and of
records that do not exist (log entry 15). -/
def Obligations.PowerOnAndResetPin : Prop :=
  ∀ s : State,
    (∃ t : State, exec .powerOnReset s = .next t ∧ t.pending = s.pending ∧ t.clock = 0 ∧
      t.power = .testing ∧ t.service = .unloaded ∧ t.hasConfig = false ∧
      t.cfg = Configuration.absent ∧ t.records = ⟨[], 0, false, [], false, 0, false⟩ ∧
      t.integrity.report = none ∧ t.integrity.poisoned = [] ∧ t.panel.command = none ∧
      t.panel.staging = none ∧ t.panel.load = .none ∧ t.integrity.resume = .none ∧
      t.line.queue = [] ∧ t.replay.codes = [] ∧ t.scanned = false ∧
      (∀ n : OutputNo, (t.output n).drive = false) ∧
      (∀ e : EndNo, look t.latches.lamps e = Lamps.off ∧ look t.latches.bells e = false)) ∧
    (∃ t : State, exec .resetPinAssert s = .next t ∧
      (∀ n : OutputNo, t.output n = { s.output n with drive := false }) ∧
      (∀ e : EndNo, look t.latches.lamps e = Lamps.off ∧ look t.latches.bells e = false) ∧
      t.noticeLine = false ∧
      t = { s with power := .held, outputs := t.outputs, latches := t.latches
                   line := { s.line with sending := none }
                   panel := { s.panel with response := none } })

/-- MEMORY_TEST_END: the part runs in UNLOADED when the test passes; when it fails, the fault report is
filled SELF CHECK on MEMORY with return state absent, and the station is in LOCKDOWN. That the report's
effect is NONE, and that LOCKDOWN alone is raised and no URGENT FAULT, is the model's reading (log entry
25). -/
def Obligations.MemoryTestDecides : Prop :=
  ∀ s : State, s.power = .testing →
    exec (.memoryTestEnd true) s = .next { s with power := .running, service := .unloaded } ∧
    ∃ t : State, exec (.memoryTestEnd false) s = .next t ∧ t.power = .running ∧
      t.service = .lockdown ∧
      t.integrity.report = some ⟨.selfCheck, .memory, none, .none, s.records.time,
        s.records.timeValid, none, false, false, false⟩ ∧
      t = { s with power := .running, service := .lockdown, integrity := t.integrity
                   records := s.records.notify .lockdown 0 } ∧
      t.integrity = { s.integrity with report := t.integrity.report }

/-! ## Track circuits -/

/-- R4: the filter update, that it never passes 16 × S, where it stops, and the range of F, which every
channel starts in; and that a valid sample of a channel makes it and an invalid one does not move F. -/
def Obligations.FilterLaw : Prop :=
  (∀ k f n : Nat, k ≤ 4 → f ≤ 16368 → n ≤ 1023 →
    (filtered k f n : Int) = f + Int.tdiv (16 * (n : Int) - f) (2 ^ k) ∧
    (k = 0 → filtered k f n = 16 * n) ∧
    (f ≤ 16 * n → f ≤ filtered k f n ∧ filtered k f n ≤ 16 * n) ∧
    (16 * n ≤ f → 16 * n ≤ filtered k f n ∧ filtered k f n ≤ f) ∧
    (filtered k f n = f ↔ (16 * (n : Int) - f).natAbs < 2 ^ k) ∧ filtered k f n ≤ 16368) ∧
  filtered 2 963 60 = 963 ∧ filtered 2 957 60 = 957 ∧
  ∀ (ch : Channel) (c : ChannelCfg) (n : Fin 1024),
    (ch.sample c (.valid n)).1.f = filtered c.k ch.f n.val ∧ (ch.sample c .fault).1.f = ch.f ∧
    (c.k ≤ 4 → ch.f ≤ 16368 → ∀ x, (ch.sample c x).1.f ≤ 16368) ∧
    (c.inRange = true → (Channel.fresh c.rnom).f = c.rnom ∧ c.rnom ≤ 16368)

/-- R5: the three thresholds, their order for every channel whose fields R1 allows and whose R lies
within its bounds, and where a channel cannot fail by high value. -/
def Obligations.ThresholdLaw : Prop :=
  (∀ (c : ChannelCfg) (r : Nat), c.inRange = true → c.rmin ≤ r → r ≤ c.rmax →
    dropThreshold c r = r * c.kd / 256 ∧ pickThreshold c r = r * c.kp / 256 ∧
    highThreshold c r = min 16368 (r * c.kh / 256) ∧
    dropThreshold c r < pickThreshold c r ∧ pickThreshold c r < highThreshold c r ∧
    pickThreshold c r < r ∧ r ≤ highThreshold c r ∧
    (16368 ≤ r * c.kh / 256 → ∀ f, f ≤ 16368 → ¬highThreshold c r < f)) ∧
  ∀ kh : Nat, 16368 ≤ 12800 * kh / 256 ↔ 328 ≤ kh

/-- R7: the reference update keeps R within its bounds, takes the sixteenth of the way toward F within
them, and sets the clamp mark, the flags and the events of an entry to a bound. -/
def Obligations.ReferenceLaw : Prop :=
  ∀ (ch : Channel) (c : ChannelCfg), c.rmin ≤ ch.r → ch.r ≤ c.rmax →
    let x : Int := (ch.r : Int) + Int.tdiv ((ch.f : Int) - ch.r) 16
    let u := (ch.updateReference c).1
    let ev := (ch.updateReference c).2
    (c.rmin ≤ u.r ∧ u.r ≤ c.rmax) ∧
    (x < c.rmin → u.r = c.rmin ∧ u.clamp = .low ∧ u.lowFeed = (ch.lowFeed || ch.clamp != .low) ∧
      u.highFeed = ch.highFeed ∧ (TrackEvent.lowFeed ∈ ev ↔ ch.clamp ≠ .low) ∧
      TrackEvent.highFeed ∉ ev) ∧
    ((c.rmax : Int) < x → u.r = c.rmax ∧ u.clamp = .high ∧
      u.highFeed = (ch.highFeed || ch.clamp != .high) ∧ u.lowFeed = ch.lowFeed ∧
      (TrackEvent.highFeed ∈ ev ↔ ch.clamp ≠ .high) ∧ TrackEvent.lowFeed ∉ ev) ∧
    ((c.rmin : Int) ≤ x → x ≤ c.rmax → (u.r : Int) = x ∧ u.clamp = .none ∧
      u.lowFeed = ch.lowFeed ∧ u.highFeed = ch.highFeed ∧ ev = [.reference]) ∧
    u.decision = ch.decision ∧ u.f = ch.f

/-- R6: which samples count for the interval, that the hundredth makes the reference update with the
value of F just computed, its clamp mark, flags and events those of the update (R7), and that every other
sample sets the count to 0 and leaves the reference with its mark and flags. -/
def Obligations.IntervalLaw : Prop :=
  ∀ (ch : Channel) (c : ChannelCfg) (n : Fin 1024),
    let t := (ch.sample c (.valid n)).1
    let as (x u : Sampled) : Prop :=
      x.1.r = u.1.r ∧ x.1.clamp = u.1.clamp ∧ x.1.lowFeed = u.1.lowFeed ∧
        x.1.highFeed = u.1.highFeed ∧ ∀ ev ∈ [TrackEvent.reference, .lowFeed, .highFeed],
          ev ∈ x.2 ↔ ev ∈ u.2
    (ch.decision = .clear ∧ t.decision = .clear ∧ t.high = 0 →
      (ch.interval + 1 < 100 → t.interval = ch.interval + 1 ∧
        as (ch.sample c (.valid n)) (ch, [])) ∧
      (100 ≤ ch.interval + 1 → t.interval = 0 ∧
        as (ch.sample c (.valid n)) ({ ch with f := t.f }.updateReference c))) ∧
    (¬(ch.decision = .clear ∧ t.decision = .clear ∧ t.high = 0) → t.interval = 0 ∧
      as (ch.sample c (.valid n)) (ch, [])) ∧
    (ch.sample c .fault).1.interval = 0 ∧ as (ch.sample c .fault) (ch, [])

/-- TRACK_SAMPLE: where the channel's dynamic record exists and its static part is sound, the sample is taken
whole, 10 ms after the one before, and of what closing an event leaves alone only that channel, its sample time,
own time and the tallies change; a channel whose static part is poisoned takes none. (That a channel whose
dynamic part stays poisoned in LOCKDOWN goes on taking samples is the model's choice: log entry 66. Own time is
the model's: log entry 2.) -/
def Obligations.TrackSampleTaken : Prop :=
  ∀ (c : ChanNo) (x : Sample) (s : State), s.live = true → s.Calm →
    ∃ t : State, exec (.trackSample c x) s = .next t ∧
      t.clock = max s.clock (look s.sampledAt c + 480) ∧
      t.rest = { s.rest with
        clock := t.clock, sampledAt := upd s.sampledAt c fun _ => t.clock
        channels := upd s.channels c fun ch =>
          if s.badStatic (.channel c) then ch else (ch.sample (s.channelCfg c) x).1
        integrity := { s.integrity with tallies := t.integrity.tallies } }

/-- DROP_CONFIRMED and PICKUP_CONFIRMED: the sample that brings the drop count to Nd makes the channel OCCUPIED,
and the one that brings the pick-up count to Np makes it CLEAR; a TRACK_SAMPLE at or above Td in DROPPING is a
bob: CLEAR with the drop count 0, the flag set and TRACK BOB raised (R9). What follows from them at the section
unit, the channel's dynamic record sound: an owned section CLEAR OUTWARD whose entry track comes to be OCCUPIED
so becomes OCCUPIED, direction, class and number kept, with the automatic entry (R106); an arrival proof, which
at its creation is at 1 where T1 is known OCCUPIED and at 0 otherwise, goes from i - 1 to i as Ti becomes
OCCUPIED with T(i - 1) OCCUPIED, is complete at n as T1 to T(n - 1) are all CLEAR, or for n = 1 as T1 is, and
falls to 0 with PROVING BROKEN as Tp becomes CLEAR with T(p + 1) not OCCUPIED (R108; said for a track that
stands once in the list, out of switching). That a channel whose dynamic part stays poisoned in LOCKDOWN goes on
taking samples is the model's choice: log entry 66. -/
def Obligations.DecisionsConfirmed : Prop :=
  (∀ (c : ChanNo) (n : Fin 1024) (s : State), s.live = true → s.Calm →
    s.badStatic (.channel c) = false →
    let ch := s.channel c
    let k := s.channelCfg c
    let f := filtered k.k ch.f n.val
    let decided (t : State) (d : Decision) : Prop :=
      (t.channel c).decision = d ∧ (t.channel c).f = f ∧ ∀ b, b ≠ c → t.channel b = s.channel b
    let proving (e : EndNo) (z : EndCfg) (p : Proof) (i : Nat) : Prop :=
      s.working = true ∧ s.switchedOut = false ∧ s.isPoisoned (.channel c) = false ∧
        s.endCfg e = some z ∧ (s.view e).shows .occupied z.toHere = true ∧
        (s.view e).proof = some p ∧ p.complete = false ∧ z.proving.Nodup ∧ 1 ≤ i ∧
        z.proving[i - 1]? = some (.here c)
    (f < dropThreshold k ch.r →
      (ch.decision = .dropping ∧ k.nd ≤ ch.drop + 1 ∨ ch.decision = .clear ∧ k.nd ≤ 1) →
      ∃ t : State, exec (.dropConfirmed c n) s = .next t ∧ decided t .occupied ∧
        (t.channel c).drop = 0 ∧
        (∀ e z, s.working = true → s.isPoisoned (.channel c) = false → s.endCfg e = some z →
          z.owner = true → z.entryTrack = some c → (s.view e).state = .clear →
          (s.view e).dir = .outward → (t.view e).state = .occupied ∧ (t.view e).dir = .outward ∧
            (t.view e).cls = (s.view e).cls ∧ (t.view e).acc = (s.view e).acc) ∧
        (∀ e z p i, proving e z p i → p.p + 1 = i →
          (2 ≤ i → ∃ u, z.proving[i - 2]? = some u ∧ s.knownOccupied u = true) →
          (t.view e).proof = some { p with p := i })) ∧
    (pickThreshold k ch.r ≤ f →
      (ch.decision = .picking ∧ k.np ≤ ch.pick + 1 ∨ ch.decision = .occupied ∧ k.np ≤ 1) →
      ∃ t : State, exec (.pickupConfirmed c n) s = .next t ∧ decided t .clear ∧
        (t.channel c).pick = 0 ∧
        (∀ e z p i, proving e z p i → p.p = z.proving.length →
          i < z.proving.length ∨ z.proving.length = 1 →
          (∀ j u, j + 1 < z.proving.length → j + 1 ≠ i → z.proving[j]? = some u →
            s.knownClear u = true) →
          (t.view e).proof = some { p with complete := true, waitUntil := none }) ∧
        (∀ e z p i, proving e z p i → p.p = i → i < z.proving.length →
          (∀ u, z.proving[i]? = some u → s.knownOccupied u = false) →
          (t.view e).proof = some { p with p := 0 } ∧ (s.records.notices.length < 24 →
            ⟨.provingBroken, e.val + 1, s.records.time, s.records.timeValid⟩
              ∈ t.records.notices))) ∧
    (dropThreshold k ch.r ≤ f → ch.decision = .dropping →
      ∃ t : State, exec (.trackSample c (.valid n)) s = .next t ∧ decided t .clear ∧
        (t.channel c).drop = 0 ∧ (t.channel c).bob = true ∧
        (s.records.notices.length < 32 →
          ⟨.trackBob, c.val + 1, s.records.time, s.records.timeValid⟩ ∈ t.records.notices))) ∧
  ∀ (e : EndNo) (z : EndCfg) (s s0 : State), s.endCfg e = some z →
    (s.occupiedSince s0 e z = true → (s.autoOccupy s0 e).records =
      s.records.take { EventInfo.ofSection .occupied z.section_ with
        cls := (s.view e).cls, acc := some (s.view e).acc, auto := true }) ∧
    ∀ v auto, v.shows .occupied z.toHere = true → (s.view e).shows .occupied z.toHere = false →
      ((s.changeView e z v auto).view e).proof =
        some ⟨if (z.proving.head?.any s.knownOccupied) then 1 else 0, false, none, false, false,
          false, none⟩

/-- HIGH_VALUE_FAILURE and CONVERTER_FAILURE: the channel enters FAILED with its cause, its counts at 0, and one
more TRACK FAILED is counted among the contained faults (that a channel whose dynamic part stays poisoned in
LOCKDOWN goes on taking samples is the model's choice: log entry 66). -/
def Obligations.ChannelFailures : Prop :=
  ∀ (c : ChanNo) (n : Fin 1024) (s : State), s.live = true → s.Calm →
    s.badStatic (.channel c) = false →
    let ch := s.channel c
    let k := s.channelCfg c
    let f := filtered k.k ch.f n.val
    let failed (t : State) (why : FailCause) : Prop :=
      (t.channel c).decision = .failed ∧ (t.channel c).cause = some why ∧ (t.channel c).drop = 0 ∧
        (t.channel c).pick = 0 ∧ (t.channel c).high = 0 ∧ (t.channel c).interval = 0 ∧
        look t.integrity.tallies 0 = min (look s.integrity.tallies 0 + 1) 255 ∧
        (s.records.notices.length < 32 →
          ⟨.trackFailed, c.val + 1, s.records.time, s.records.timeValid⟩ ∈ t.records.notices)
    (ch.decision = .clear → dropThreshold k ch.r ≤ f → highThreshold k ch.r < f →
      k.nd ≤ ch.high + 1 →
      ∃ t : State, exec (.highValueFailure c n) s = .next t ∧ failed t .highValue) ∧
    (ch.decision ≠ .failed → 2 ≤ ch.faultRun →
      ∃ t : State, exec (.converterFailure c) s = .next t ∧ failed t .converter)

/-- REFERENCE_UPDATE and CHANNEL_SETTLED: the sample that brings the interval count to 100 makes the reference
update, R, the clamp mark and the flags those of R7, and LOW FEED or HIGH FEED, where the update enters a bound,
is raised and counted among the contained faults (R142); the one that brings the settle count to Np settles the
channel (that a channel whose dynamic part stays poisoned in LOCKDOWN goes on taking samples is the model's
choice: log entry 66). -/
def Obligations.ReferenceAndSettling : Prop :=
  ∀ (c : ChanNo) (n : Fin 1024) (x : Sample) (s : State), s.live = true → s.Calm →
    s.badStatic (.channel c) = false →
    let ch := s.channel c
    let k := s.channelCfg c
    let f := filtered k.k ch.f n.val
    let u := { ch with f := f }.updateReference k
    let told (t : State) (ev : TrackEvent) (i : Fin 7) (kind : NoticeKind) : Prop :=
      (ev ∉ u.2 → look t.integrity.tallies i = look s.integrity.tallies i) ∧
      (ev ∈ u.2 → look t.integrity.tallies i = min (look s.integrity.tallies i + 1) 255 ∧
        (s.records.notices.length < 32 →
          ⟨kind, c.val + 1, s.records.time, s.records.timeValid⟩ ∈ t.records.notices))
    (ch.decision = .clear → dropThreshold k ch.r ≤ f → f ≤ highThreshold k ch.r →
      99 ≤ ch.interval →
      ∃ t : State, exec (.referenceUpdate c n) s = .next t ∧ (t.channel c).interval = 0 ∧
        (t.channel c).r = u.1.r ∧ (t.channel c).clamp = u.1.clamp ∧
        (t.channel c).lowFeed = u.1.lowFeed ∧ (t.channel c).highFeed = u.1.highFeed ∧
        (t.channel c).decision = .clear ∧ told t .lowFeed 5 .lowFeed ∧
        told t .highFeed 6 .highFeed) ∧
    (ch.settle + 1 = k.np →
      ∃ t : State, exec (.channelSettled c x) s = .next t ∧ t.settled c = true ∧
        t.channel c = (ch.sample k x).1)

/-! ## The frame -/

/-- Debounce (R19): from a run of 0, readings that never show the other value three times together
leave the taken value, and three readings of the other value together take it. -/
def Obligations.DebounceLaw : Prop :=
  (∀ (v : Bool) (xs : List Bool), ¬([!v, !v, !v] <:+: xs) →
    (xs.foldl Input.read ⟨v, 0⟩).closed = v ∧ (xs.foldl Input.read ⟨v, 0⟩).run ≤ 2) ∧
  ∀ (i : Input) (v : Bool), i.run ≤ 2 → (((i.read v).read v).read v) = ⟨v, 0⟩

/-- FRAME_SCAN: every lock and control output takes its commanded state at the scan, off in UNLOADED,
LOADING and LOCKDOWN, the lamps are written, and the next scan is due 5 ms later (R35). What is written is
what stands before the scan's inputs are taken, the model's reading of R19 (log entry 4); own time is the
model's (log entry 2), and that the scan is taken during the memory test is its choice (log entry 71). Then the
outputs are commanded anew from the records as the scan leaves them: a lock output energized exactly in the cases of
R25, its lever's record sound (that a lever at NORMAL is not freed while the collar set stays poisoned shows in
LOCKDOWN alone, in which no lock is; that a through lever in PROVING is freed as any other is the model's choice:
log entry 30), a control output exactly where R30 has it, and one that no lever names never (R20). The table is
judged at the scan: where the evaluator works and both lanes answer rightly (a lane's malfunction comes with the
scan: log entry 23), the combined result of an expression is what it comes to on those records (R41, R52, R54). A
control that drops while its lever stands at REVERSE has set the lever's replacement latch (R31). A lever read at
its taken contacts keeps its position and its collar, and its stroke with its hold while outputs may be given (R19,
R21, R27), and a scan that finds every monitor at its drive and the lanes in agreement leaves the station IN
SERVICE. -/
def Obligations.ScanWritesOutputs : Prop :=
  ∀ (inp : ScanInputs) (s : State), s.power ≠ .held → s.Calm →
    ∃ t : State, exec (.frameScan inp) s = .next t ∧ t.scanned = true ∧
      t.scanAt = max s.clock (s.scanAt + 240) ∧ t.clock = t.scanAt ∧
      (∀ n : OutputNo, (t.output n).drive = (!s.outputsOff && (s.output n).command)) ∧
      (∀ e : EndNo, look t.latches.lamps e = if s.outputsOff then Lamps.off else s.lamps e) ∧
      t.cfg = s.cfg ∧ t.channels = s.channels ∧ t.panel.staging = s.panel.staging ∧
      (∀ n : OutputNo, s.cfg.leverOf n = none → (t.output n).command = false) ∧
      (s.live = true →
        let lockFreed (l : LeverNo) : Prop :=
          match t.service, (t.lever l).position, (t.lever l).stroke with
          | .inService, .normal, _ => (look t.collars l).effective = false ∧
              s.isPoisoned .collars = false ∧ t.combined l .reverse = true
          | .inService, .reverse, _ | .proving, .reverse, _ => t.combined l .normal = true
          | .inService, .mid, some k | .proving, .mid, some k => k.hold = true
          | .proving, .mid, none => t.combined l .normal = true
          | _, _, _ => False
        let controlGiven (l : LeverNo) : Prop :=
          t.service = .inService ∧ (t.lever l).position = .reverse ∧
            t.combined l .control = true ∧ (t.lever l).latch = false
        (∀ n l, s.cfg.leverOf n = some l → n.val < 32 →
          ((t.output n).command = true ↔ s.badLever l = false ∧ lockFreed l)) ∧
        (∀ n l, s.cfg.leverOf n = some l → 32 ≤ n.val →
          ((t.output n).command = true ↔ s.badLever l = false ∧ controlGiven l) ∧
          ((s.output n).command = true → (t.output n).command = false →
            (t.lever l).position = .reverse → (t.lever l).latch = true)) ∧
        (∀ l k x, s.cfg.exprOf l k = some x → t.judging = true →
          inp.laneErrA.getLsbD x.val = false → inp.laneErrB.getLsbD x.val = false →
          t.combined l k = t.judge x) ∧
        (∀ l, (s.lever l).contactsRead = true →
          inp.leverN.getLsbD l.val = (s.lever l).nContact.closed →
          inp.leverR.getLsbD l.val = (s.lever l).rContact.closed →
          (t.lever l).position = (s.lever l).position ∧ look t.collars l = look s.collars l ∧
            (t.service = .inService ∨ t.service = .proving →
              (t.lever l).stroke = (s.lever l).stroke)) ∧
        (s.service = .inService → inp.laneErrA = inp.laneErrB →
          (∀ n : OutputNo, inp.monitors.getLsbD n.val = s.driven n) → t.service = .inService))

/-- TAKEN_CHANGE of a lever contact: the contact's taken value changes with its run at 0, the position is the
one R21 gives for the two contacts, the contact fault stands exactly while both are closed, and no other lever
moves. With a change of position: a stroke begins from an end position to MID, its hold as the lock is
commanded, and is absent otherwise (R23, R27); a staged collar change is applied on leaving MID (R29); the
replacement latch is cleared at NORMAL, set at REVERSE with no stroke, and left by a stroke that ends at REVERSE
(R31; that it is cleared on arrival at NORMAL from UNKNOWN too is the model's reading: log entry 16); a stroke
completed at NORMAL starts each IDLE timer of the lever whose approach track is not known CLEAR (R33); one
completed at REVERSE consumes an AVAILABLE release (R97). That strokes, collars, latches and timers follow a
change of position in LOCKDOWN too is the model's choice: log entry 61. Own time is the model's: log entry 2. -/
def Obligations.LeverContactChange : Prop :=
  ∀ (l : LeverNo) (s : State), s.live = true → s.scanned = true → s.Calm →
    (s.lever l).contactsRead = true →
    let v := s.lever l
    let n := v.nContact.closed
    let r := v.rContact.closed
    let now := max s.clock (s.scanAt + 240)
    let same (t : State) : Prop := ∀ m, m ≠ l → (t.lever m).kept = (s.lever m).kept
    let completed (new : LeverPos) (from_ : LeverEnd) (frm dst : LeverPos) : Bool :=
      new == dst && (v.stroke.map (·.left) == some from_ || v.stroke.isNone && v.position == frm)
    let atNormal (new : LeverPos) : Bool := completed new .reverse .reverse .normal
    let atReverse (new : LeverPos) : Bool := completed new .normal .normal .reverse
    let strokes (new : LeverPos) (t : State) : Prop :=
      (new = .mid → (t.lever l).stroke = match v.position with
        | .normal => some ⟨.normal, s.lockOn l⟩
        | .reverse => some ⟨.reverse, s.lockOn l⟩
        | _ => none) ∧
      (new ≠ .mid → (t.lever l).stroke = none) ∧
      (v.position = .mid → look t.collars l =
        ⟨(look s.collars l).staged.getD (look s.collars l).effective, none⟩) ∧
      (∀ m, m ≠ l → look t.collars m = look s.collars m)
    let latches (new : LeverPos) (t : State) : Prop :=
      (new = .normal → (t.lever l).latch = false) ∧
      (new = .reverse → v.stroke = none → v.position ≠ .normal → (s.leverCfg l).control ≠ none →
        (t.lever l).latch = true) ∧
      (new = .reverse → v.stroke ≠ none → s.switchedOut = false →
        (∀ m, (s.leverCfg l).controlOutput = some m → (s.output m).command = false) →
        (t.lever l).latch = v.latch)
    let timers (new : LeverPos) (t : State) : Prop := ∀ x, look t.timers x =
      match look s.cfg.timers x with
      | some k =>
        if atNormal new && k.trigger == l && (look s.timers x).isNone && !s.badStatic (.timer x)
            && !s.knownClear k.approach then some (now + 48000 * k.duration)
        else look s.timers x
      | none => look s.timers x
    let release (new : LeverPos) (t : State) : Prop := ∀ e c, (s.leverCfg l).releaseOf = some e →
      s.endCfg e = some c → s.working = true → atReverse new = true →
      (s.release e).state = .available →
      (s.view e).showsClear c.away (s.release e).acc = true →
      t.release e = ⟨.consumed, (s.release e).acc, none⟩
    let moved (new : LeverPos) (t : State) : Prop := v.position ≠ new →
      strokes new t ∧ latches new t ∧ timers new t ∧ release new t
    (∃ t : State, exec (.takenChange (.leverN l)) s = .next t ∧ t.clock = now ∧
      (t.lever l).nContact = ⟨!n, 0⟩ ∧ (t.lever l).rContact = v.rContact ∧
      (t.lever l).position = positionOf (!n) r ∧ (t.lever l).contactFault = (!n && r) ∧ same t ∧
      moved (positionOf (!n) r) t) ∧
    (∃ t : State, exec (.takenChange (.leverR l)) s = .next t ∧ t.clock = now ∧
      (t.lever l).rContact = ⟨!r, 0⟩ ∧ (t.lever l).nContact = v.nContact ∧
      (t.lever l).position = positionOf n (!r) ∧ (t.lever l).contactFault = (n && !r) ∧ same t ∧
      moved (positionOf n (!r)) t)

/-- TIMER_EXPIRY: a RUNNING timer goes to IDLE when its time has passed; of what closing an event leaves alone
(`State.rest`; the closing pass over the other records is the model's: log entry 7) only that timer and own time
change. That a timer whose record stays poisoned in LOCKDOWN expires too is the model's choice: log entry 61.
Own time is the model's: log entry 2. -/
def Obligations.TimerExpires : Prop :=
  ∀ (x : TimerNo) (due : Nat) (s : State), s.live = true → s.Calm → look s.timers x = some due →
    ∃ t : State, exec (.timerExpiry x) s = .next t ∧ look t.timers x = none ∧
      t.rest = { s.rest with clock := max s.clock due, timers := upd s.timers x fun _ => none }

/-- OUTPUT_READBACK. In LOADED, PROVING or IN SERVICE: the output is marked, the fault report filled, the return
state LOADED or PROVING, and the station RESTRICTIVE with every output commanded off and every hold clear; the
replacement latch of every signal lever at REVERSE whose control was commanded energized is set (R31, R146); no
release is AVAILABLE, every pending request has lapsed (one made for a standing auto-cancel mark may follow it;
that an automatic arrival which waited for it is not asked for rests on the model's order, the lapses before the
forced switch-in: log entry 34), the switch is IN with its cause latched, URGENT FAULT is raised, and a SECTION
STATE as it stands, with owner fault, is queued for every owned section (R146). An output that is marked, whose
drive is energized or whose drive the scan energizes reports nothing (R35, R36). -/
def Obligations.ReadbackFirstUrgent : Prop :=
  (∀ (n : OutputNo) (s : State),
    (s.output n).drive = true ∨ s.driven n = true ∨ (s.output n).failedMark = true →
    exec (.outputReadback n) s = .next s) ∧
  ∀ (n : OutputNo) (s : State), s.live = true → s.Calm → (s.output n).drive = false →
    s.driven n = false → (s.output n).failedMark = false →
    (s.service = .loaded ∨ s.service = .proving ∨ s.service = .inService →
      ∃ t : State, exec (.outputReadback n) s = .next t ∧ t.service = .restrictive ∧
        (t.output n).failedMark = true ∧
        t.integrity = { s.integrity with report := some ⟨.outputReadback, .output n,
          some .lockEvaluation, .none, s.records.time, s.records.timeValid,
          some (if s.service = .loaded then .loaded else .proving), false, false, false⟩ } ∧
        (∀ m : OutputNo, (t.output m).command = false) ∧
        (∀ l : LeverNo, ∀ k, (t.lever l).stroke = some k → k.hold = false) ∧
        (∀ (l : LeverNo) (m : OutputNo), (s.leverCfg l).controlOutput = some m →
          (s.output m).command = true → (s.lever l).position = .reverse →
          (t.lever l).latch = true) ∧
        (∀ e c, s.endCfg e = some c → (t.release e).state ≠ .available ∧
          ((s.view e).autoCancel = false → (t.view e).pending = none)) ∧
        t.switch.state = .inn ∧
        (s.hasPairs = true → t.switch.cause = some (s.switch.cause.getD .fault)) ∧
        (s.switchedOut = true → s.hasPairs = true → s.switch.keyIn.closed = true →
          t.switch.mark = true) ∧
        (s.records.notices.length < 24 →
          ⟨.urgentFault, n.val + 1, s.records.time, s.records.timeValid⟩ ∈ t.records.notices) ∧
        (s.service ≠ .loaded → s.mute = false → ∀ e c, s.endCfg e = some c → c.owner = true →
          s.badStatic (.sectionEnd e) = false → t.sectionStateOf e c ∈ t.line.queue ∧
            (t.sectionFields e c none).ownerFault = true))

/-- A further urgent fault, OUTPUT_READBACK in RESTRICTIVE: the flag of the kind is set in the report that
stands, the station goes to LOCKDOWN, and FAILED stands alone in the queue unless the STATION CONFIGURATION is
poisoned (that a poisoned SECTION END STATIC does not keep it back is the model's choice: log entry 43). -/
def Obligations.FurtherUrgentLocksDown : Prop :=
  ∀ (n : OutputNo) (s : State), s.live = true → s.Calm → (s.output n).drive = false →
    s.driven n = false → (s.output n).failedMark = false → s.service = .restrictive →
    ∃ t : State, exec (.outputReadback n) s = .next t ∧ t.service = .lockdown ∧
      t.integrity.report = s.integrity.report.map (fun r => { r with multiReadback := true }) ∧
      t.line.queue = (if s.mute then [] else
        [⟨0, .failed (allEnds.filterMap fun e => (s.endCfg e).map (·.section_)), none⟩]) ∧
      t.panel.command = none ∧ t.replay = Replay.empty ∧
      ∀ m : OutputNo, (t.output m).command = false

/-- LOCK_NOT_ENERGIZED: a contained fault; the flag is set, the tally rises, and the station's report and poison
are as they were, and the service state as it was. An output whose drive is not energized or whose drive the
scan leaves off reports nothing (R35, R37), and one whose flag is set reports nothing by the model's choice,
which takes in a disagreement after one of the opposite sense with no agreeing scan between (log entry 62). -/
def Obligations.LockSilenceContained : Prop :=
  (∀ (n : OutputNo) (s : State),
    (s.output n).drive = false ∨ s.driven n = false ∨ (s.output n).notEnergized = true →
    exec (.lockNotEnergized n) s = .next s) ∧
  ∀ (n : OutputNo) (s : State), s.live = true → s.Calm → s.service ≠ .lockdown →
    (s.output n).drive = true → s.driven n = true → (s.output n).notEnergized = false →
    ∃ t : State, exec (.lockNotEnergized n) s = .next t ∧ (t.output n).notEnergized = true ∧
      (t.output n).drive = true ∧
      t.integrity = { s.integrity with
        tallies := upd s.integrity.tallies 4 fun k => min (k + 1) 255 } ∧
      t.service = s.service ∧
      (s.records.notices.length < 32 →
        ⟨.lockNotEnergized, n.val + 1, s.records.time, s.records.timeValid⟩ ∈ t.records.notices)

/-- SELF_CHECK in IN SERVICE: a lane disagreement past 20 ms fills the report with the expression,
LOCK EVALUATION and NOT APPLIED, marks the expression while the lanes still disagree, and makes the
station RESTRICTIVE. Own time is the model's: log entry 2. -/
def Obligations.LaneDisagreementUrgent : Prop :=
  ∀ (x : ExprNo) (since : Nat) (s : State), s.live = true → s.Calm → s.service = .inService →
    x.val < s.cfg.exprs.length → (look s.lanes x).since = some since → (look s.lanes x).laneFailed = false →
    s.laneErrA.getLsbD x.val ≠ s.laneErrB.getLsbD x.val →
    ∃ t : State, exec (.selfCheck x) s = .next t ∧ t.service = .restrictive ∧
      t.clock = max s.clock (since + 960) ∧ (look t.lanes x).laneFailed = true ∧
      t.integrity = { s.integrity with report := some ⟨.selfCheck, .record (.fixed (.expr x)),
        some .lockEvaluation, .notApplied, s.records.time, s.records.timeValid, some .proving,
        false, false, false⟩ } ∧
      ∀ m : OutputNo, (t.output m).command = false

/-- The law of the outputs (R26, R30) is kept by every step, from every state that has it. -/
def Obligations.OutputLawKept : Prop :=
  ∀ s t : State, s.OutputLaw → step s = .next t → t.OutputLaw

/-- The laws that every step keeps hold in the state after reset. -/
def Obligations.ResetHasLaws : Prop :=
  State.reset.OutputLaw ∧ State.reset.QueueLaw ∧ State.reset.RecordsBounded ∧
    State.reset.SwitchLaw ∧ State.reset.SectionLaw ∧ State.reset.ReleaseLaw

/-! ## The locking table -/

/-- Conditions that read a poisoned record are not met, those of the switch among them, and an expression whose
own record is poisoned does not hold (R48). Where the record that it reads is sound, each condition is met exactly
when R42 to R47 say: a lever at that end position; a local track CLEAR, or OCCUPIED with PICKING counted; a remote
one so recorded by its entry, its publisher fresh and without the lockdown mark; a section end's view in that state,
at a far end while the mirror is fresh; the release record in that state; a timer IDLE; the switch state IN, or OUT
or IN PENDING, one of which always is. A condition on a part that the configuration does not have is not met. An
expression of a sound record holds exactly when it has no terms or one of which every condition is met, and its
automatic term holds (R41): the release CONSUMED over a sound view on the control expression of a release lever
(R50), STATION SWITCHED IN on the normal expression of a through lever (R51), and none else. A view is sound as R49
has it. -/
def Obligations.PoisonMeetsNothing : Prop :=
  ∀ s : State,
    (∀ l, s.badLever l = true → s.met (.leverNormal l) = false ∧ s.met (.leverReverse l) = false) ∧
    (∀ c, s.badChannel c = true →
      s.met (.trackClear (.here c)) = false ∧ s.met (.trackOccupied (.here c)) = false) ∧
    (∀ i, s.badStatic (.sub i) = true ∨ s.isPoisoned (.sub i) = true →
      s.met (.trackClear (.far i)) = false ∧ s.met (.trackOccupied (.far i)) = false) ∧
    (∀ e c, s.endCfg e = some c → s.isPoisoned (c.viewRecord e) = true →
      s.met (.sectionBlocked e) = false ∧ s.met (.sectionOccupied e) = false ∧ s.sound e = false) ∧
    (∀ e, s.isPoisoned (.release e) = true →
      s.met (.releaseAvailable e) = false ∧ s.met (.releaseConsumed e) = false) ∧
    (∀ x, s.badStatic (.timer x) = true ∨ s.isPoisoned (.timer x) = true →
      s.met (.timerIdle x) = false) ∧
    (s.isPoisoned .switch = true → s.met .switchedIn = false ∧ s.met .switchedOut = false) ∧
    (∀ x, s.badStatic (.expr x) = true → s.judge x = false) ∧
    (∀ l, s.badLever l = false →
      (s.met (.leverNormal l) = true ↔ (s.lever l).position = .normal) ∧
      (s.met (.leverReverse l) = true ↔ (s.lever l).position = .reverse)) ∧
    (∀ c, s.badChannel c = false →
      (s.met (.trackClear (.here c)) = true ↔ (s.channel c).decision = .clear) ∧
      (s.met (.trackOccupied (.here c)) = true ↔
        (s.channel c).decision = .occupied ∨ (s.channel c).decision = .picking)) ∧
    (∀ i k, look s.cfg.subs i = some k → s.badStatic (.sub i) = false → s.isPoisoned (.sub i) = false →
      let heard : Prop :=
        (s.stationRec k.publisher).fresh = true ∧ (s.stationRec k.publisher).lockdown = false
      (s.met (.trackClear (.far i)) = true ↔ heard ∧ (s.sub i).state = .clear) ∧
      (s.met (.trackOccupied (.far i)) = true ↔ heard ∧ (s.sub i).state = .occupied)) ∧
    (∀ i, look s.cfg.subs i = none →
      s.met (.trackClear (.far i)) = false ∧ s.met (.trackOccupied (.far i)) = false) ∧
    (∀ e c, s.endCfg e = some c → s.isPoisoned (c.viewRecord e) = false →
      let shows (st : SecState) : Prop :=
        (s.view e).state = st ∧ (c.owner = true ∨ (s.lineEnd e).fresh = true)
      (s.met (.sectionBlocked e) = true ↔ shows .blocked) ∧
      (s.met (.sectionOccupied e) = true ↔ shows .occupied) ∧
      (s.sound e = true ↔ s.badStatic (.sectionEnd e) = false ∧ (s.view e).obstruction = false ∧
        if c.owner then s.service ≠ .restrictive ∧ s.service ≠ .lockdown
        else (s.lineEnd e).fresh = true ∧ (s.view e).ownerFault = false ∧
          (s.view e).localObs = .clear)) ∧
    (∀ e, s.endCfg e = none →
      s.met (.sectionBlocked e) = false ∧ s.met (.sectionOccupied e) = false ∧ s.sound e = false) ∧
    (∀ e, s.isPoisoned (.release e) = false →
      (s.met (.releaseAvailable e) = true ↔ (s.release e).state = .available) ∧
      (s.met (.releaseConsumed e) = true ↔ (s.release e).state = .consumed)) ∧
    (∀ x, s.badStatic (.timer x) = false → s.isPoisoned (.timer x) = false →
      (s.met (.timerIdle x) = true ↔ look s.timers x = none)) ∧
    (s.isPoisoned .switch = false →
      (s.met .switchedIn = true ↔ s.switch.state = .inn) ∧
      (s.met .switchedOut = true ↔ s.switch.state = .out ∨ s.switch.state = .inPending)) ∧
    (∀ x : ExprNo, s.cfg.exprs[x.val]? = none → s.judge x = false) ∧
    ∀ (x : ExprNo) (z : Expr), s.cfg.exprs[x.val]? = some z → s.badStatic (.expr x) = false →
      let term : Prop :=
        match z.kind with
        | .reverse => True
        | .control => ∀ e, (s.leverCfg z.lever).releaseOf = some e →
            s.met (.releaseConsumed e) = true ∧ s.sound e = true
        | .normal => (s.leverCfg z.lever).throughOf ≠ none → s.met .switchedIn = true
      (s.judge x = true ↔
        (z.terms = [] ∨ ∃ m ∈ z.terms, ∀ k ∈ m, s.met k = true) ∧ term)

/-! ## Bells -/

/-- The limits of a code (R59): a beat placed in a code within the limits leaves it within them, the first beat
makes one, a beat that fits is recorded in its group or as a new one, a sixth group, a tenth beat of a group and
a seventeenth beat set the overlong flag, and from the overlong flag on no group changes. TAKEN_CHANGE of a bell
key: a press in IDLE or GAP goes to PRESSED, one in HOLD OFF forgets its open since, a code whose Gend has
passed is handed over and sent first, and the press clears the lost flag (R57, R58, R60, R64); a release places
a beat of 30 ms or more, ignores a shorter closure, and finds a stuck key at 2000 ms (R57, R58, R60). That a
beat pressed less than Gsep after the last release is added to the last group, also where its closure outlasts
Gend and R58 has it join as a new group, is the model's choice: log entry 63; that edges are measured between
the scans that take them, and a release found at 2000 ms or later is a stuck key, is its reading: log entry 26.
Own time is the model's: log entry 2. -/
def Obligations.BeatLimits : Prop :=
  (∀ p r g, codeFits (placeBeat none p r g).groups = true) ∧
  (∀ (a : Assembly) (p r g : Nat), codeFits a.groups = true →
    codeFits (placeBeat (some a) p r g).groups = true ∧
    (placeBeat (some a) p r g).lastRelease = r) ∧
  (∀ (a : Assembly) (p r g : Nat), a.overlong = true →
    (placeBeat (some a) p r g).groups = a.groups ∧
      (placeBeat (some a) p r g).overlong = true) ∧
  (∀ (a : Assembly) (p r g : Nat), 16 ≤ a.groups.sum → a.overlong = false →
    (placeBeat (some a) p r g).overlong = true ∧ (placeBeat (some a) p r g).groups = a.groups) ∧
  (∀ (a : Assembly) (gs : List Nat) (k p r g : Nat), a.groups = gs ++ [k] → a.overlong = false →
    a.groups.sum < 16 →
    (a.lastRelease + g ≤ p → a.groups.length < 5 →
      placeBeat (some a) p r g = ⟨gs ++ [k, 1], false, r⟩) ∧
    (a.lastRelease + g ≤ p → a.groups.length = 5 →
      placeBeat (some a) p r g = ⟨a.groups, true, r⟩) ∧
    (p < a.lastRelease + g → k < 9 → placeBeat (some a) p r g = ⟨gs ++ [k + 1], false, r⟩) ∧
    (p < a.lastRelease + g → k = 9 → placeBeat (some a) p r g = ⟨a.groups, true, r⟩)) ∧
  ∀ (e : EndNo) (c : EndCfg) (s : State), s.working = true → s.scanned = true → s.Calm →
    s.endCfg e = some c →
    let b := s.bell e
    let now := max s.clock (s.scanAt + 240)
    let passed : Bool := match b.code with
      | some a => a.lastRelease + 48 * s.gend ≤ now
      | none => false
    let taken (phase : KeyPhase) (code : Option Assembly) (t : State) : Prop :=
      exec (.takenChange (.bellKey e)) s = .next t ∧ t.clock = now ∧ (t.bell e).phase = phase ∧
        (t.bell e).code = code ∧ (t.bell e).keyIn = ⟨!b.keyIn.closed, 0⟩
    (b.keyIn.closed = false →
      (b.phase = .idle → ∃ t, taken (.pressed now) b.code t ∧ (t.bell e).lost = false) ∧
      (b.phase = .gap → passed = false →
        ∃ t, taken (.pressed now) b.code t ∧ (t.bell e).lost = false) ∧
      (∀ a, b.phase = .gap → b.code = some a → passed = true →
        ∃ t, taken (.pressed now) none t ∧ (t.bell e).lost = false ∧
          (s.takesAt e = true →
            (⟨c.neighbour.val, .bell ⟨c.section_, a.overlong, false, a.groups⟩, some e⟩ : TxEntry)
              ∈ t.line.queue)) ∧
      (∀ o, b.phase = .holdOff o →
        ∃ t, taken (.holdOff none) b.code t ∧ (t.bell e).lost = false)) ∧
    (b.keyIn.closed = true →
      (∀ t0, b.phase = .pressed t0 →
        (now < t0 + 1440 → passed = false →
          ∃ t, taken (if b.code.isSome then .gap else .idle) b.code t) ∧
        (t0 + 1440 ≤ now → now < t0 + 96000 →
          ∃ t, taken .gap (some (placeBeat b.code t0 now (48 * s.gsep))) t) ∧
        (t0 + 96000 ≤ now → ∃ t, taken (.holdOff (some now)) none t ∧
          look t.integrity.tallies 2 = min (look s.integrity.tallies 2 + 1) 255)) ∧
      (∀ o, b.phase = .holdOff o → ∃ t, taken (.holdOff (some now)) b.code t))

/-- Matching (R63): the first entry that matches gives the meaning where no entry up to it is poisoned;
a code that no entry matches, an overlong code, and one that reaches a poisoned entry first are
UNRECOGNISED. -/
def Obligations.FirstMatchDecides : Prop :=
  ∀ (s : State) (groups : List Nat),
    let matching (k : CodeNo) : Bool :=
      match look s.cfg.codes k with
      | some c => patternMatches c.pattern groups
      | none => false
    (∀ (k : CodeNo) (c : CodeCfg), look s.cfg.codes k = some c → matching k = true →
      (∀ j : CodeNo, j.val < k.val → matching j = false) →
      (∀ j : CodeNo, j.val ≤ k.val → s.badStatic (.code j) = false) →
      s.meaning groups false = c.meaning) ∧
    ((∀ j : CodeNo, matching j = false) → s.meaning groups false = .unrecognised) ∧
    (∀ k : CodeNo, s.badStatic (.code k) = true →
      (∀ j : CodeNo, j.val < k.val → matching j = false) →
      s.meaning groups false = .unrecognised) ∧
    s.meaning groups true = .unrecognised

/-- STUCK_KEY, HOLD_OFF_END, OFFER_OUTSTANDING_EXPIRY and OFFER_RECORD_EXPIRY: each does what its
moment brings to its own record at that end, and no other record of the bell unit changes. Own time
is the model's: log entry 2. -/
def Obligations.BellMoments : Prop :=
  ∀ (e : EndNo) (s : State), s.working = true → s.Calm →
    (∀ t0, (s.bell e).phase = .pressed t0 →
      ∃ t : State, exec (.stuckKey e) s = .next t ∧
        t.bells = upd s.bells e (fun b => { b with phase := .holdOff none, code := none }) ∧
        t.clock = max s.clock (t0 + 96000) ∧
        t.records = s.records.notify .stuckKey (e.val + 1) ∧
        t.integrity = { s.integrity with
          tallies := upd s.integrity.tallies 2 fun k => min (k + 1) 255 } ∧
        t = { s with bells := t.bells, clock := t.clock, records := t.records
                     integrity := t.integrity }) ∧
    (∀ t0, (s.bell e).phase = .holdOff (some t0) →
      exec (.holdOffEnd e) s = .next { s with
        clock := max s.clock (t0 + 48000)
        bells := upd s.bells e fun b => { b with phase := .idle } }) ∧
    (∀ o, (s.bell e).outstanding = some o →
      exec (.offerOutstandingExpiry e) s = .next { s with
        clock := max s.clock (o.setAt + 5760000)
        bells := upd s.bells e fun b => { b with outstanding := none } }) ∧
    (∀ o, (s.bell e).offer = some o →
      exec (.offerRecordExpiry e) s = .next { s with
        clock := max s.clock (o.setAt + 5760000)
        bells := upd s.bells e fun b => { b with offer := none } })

/-- CODE_END: the key record goes to IDLE and the code leaves it. Where the queue takes it, the BELL for
the section, with the groups and the overlong flag and the relayed flag clear, joins the queue; the
sending-end effects of its meaning are made, an offer outstanding at an end that can be rear or an
obstruction handed to the section unit, which registers OBSTRUCTION SET where it was clear (R65, R68, R94), and
BELL SENT is registered with the fields of R154, after it (the order of two entries of one event is the model's:
log entry 8). Where it is refused, BELL LOST is raised and the lost flag set, and no effect is made (R64, R82);
that a BELL at an end whose static record is poisoned is lost in this way is the model's reading (log entries
12 and 43). `u` is the state that the event's close, `State.react`, then answers (the close is the model's: log
entry 7). Own time is the model's: log entry 2. -/
def Obligations.CodeEndSendsBell : Prop :=
  ∀ (e : EndNo) (c : EndCfg) (a : Assembly) (s : State), s.working = true → s.Calm →
    (s.bell e).phase = .gap → (s.bell e).code = some a → s.endCfg e = some c →
    let now := max s.clock (a.lastRelease + 48 * s.gend)
    let m := s.meaning a.groups a.overlong
    let bell : TxEntry :=
      ⟨c.neighbour.val, .bell ⟨c.section_, a.overlong, false, a.groups⟩, some e⟩
    (s.takesSingle = true → s.badStatic (.sectionEnd e) = false →
      ∃ u t : State, exec (.codeEnd e) s = .next t ∧ t = u.react s ∧ (t.bell e).phase = .idle ∧
        (t.bell e).code = none ∧ t.clock = now ∧ bell ∈ t.line.queue ∧
        u.line = { s.line with queue := s.line.queue ++ [bell] } ∧
        (u.bell e).lost = (s.bell e).lost ∧
        (∀ k, m = .offer k → (u.bell e).outstanding =
          if c.canRear then some ⟨k, now⟩ else (s.bell e).outstanding) ∧
        (m = .obstruction → if c.owner then (u.view e).obstruction = true
          else (u.view e).localObs ≠ .clear) ∧
        (m ≠ .obstruction → u.ends = s.ends) ∧
        u.records = RecordUnit.take
          (if m = .obstruction then obstructionNoted c (s.view e) s.records else s.records)
          { EventInfo.ofSection .bellSent c.section_ with
            groups := some a.groups, overlong := a.overlong, meaning := some m, cls := m.cls }) ∧
    (s.takesSingle = false ∨ s.badStatic (.sectionEnd e) = true →
      exec (.codeEnd e) s = .next (State.react { s with
        clock := now
        bells := upd s.bells e fun b => { b with phase := .idle, code := none, lost := true }
        records := s.records.notify .bellLost (e.val + 1) } s))

/-- BELL_STROKE_START and BELL_STROKE_END: a stroke energizes the bell output of the head code's end
for 60 ms; the next is due 250 ms after its start within a group, 900 ms after it at a group's end,
and after the last stroke the code leaves the queue. Own time is the model's: log entry 2. -/
def Obligations.StrokesRing : Prop :=
  ∀ (q : Queued) (qs : List Queued) (s : State), s.working = true → s.Calm →
    s.replay.codes = q :: qs →
    (s.replay.ringingUntil = none → s.replay.started < q.groups.sum →
      ∃ t : State, exec .bellStrokeStart s = .next t ∧ look t.latches.bells q.endNo = true ∧
        t.replay.started = s.replay.started + 1 ∧
        t.replay.ringingUntil = some (t.clock + 2880) ∧ t.replay.codes = q :: qs ∧
        s.replay.nextDue ≤ t.clock ∧
        (s.replay.started + 1 < q.groups.sum → t.replay.nextDue = t.clock +
          if groupEnds q.groups (s.replay.started + 1) then 43200 else 12000) ∧
        t = { s with clock := t.clock, replay := t.replay, latches := t.latches }) ∧
    (∀ u, s.replay.ringingUntil = some u →
      ∃ t : State, exec .bellStrokeEnd s = .next t ∧ look t.latches.bells q.endNo = false ∧
        t.replay.ringingUntil = none ∧ t.clock = max s.clock u ∧
        t.replay.codes = (if q.groups.sum ≤ s.replay.started then qs else q :: qs) ∧
        t = { s with clock := t.clock, replay := t.replay, latches := t.latches })

/-- BELL_RECEIVED: a code within the limits of R59 joins the replay queue at its tail where fewer
than 8 are queued, and is not rung, with BELL NOT RUNG, where 8 are (R69). Its meaning acts: OFFER at an end
that can be accepting sets the offer record with the class and the time of reception and raises OFFER (R67),
OBSTRUCTION is handed to the section unit, which registers OBSTRUCTION SET where it was clear (R68, R94); then
BELL RECEIVED is registered with the fields of R154 (the order of two entries of one event is the model's: log
entry 8). While the station is switched out it is relayed at the other end of the pair, the relayed flag set,
with its sending-end effects and BELL RELAYED, or lost there with BELL LOST (R71; lost too where that end's
static record is poisoned, the model's reading: log entries 12 and 43). A code outside the limits changes
nothing. `u` is the state that the event's close, `State.react`, then answers (the close is the model's: log
entry 7). Own time is the model's: log entry 2. -/
def Obligations.BellQueuedForRinging : Prop :=
  ∀ (h : Header) (a : Addr) (e : EndNo) (c : EndCfg) (m : BellMsg) (s : State), s.Listening →
    s.ForUs h a → s.Shares a m.section_ e c → (Telegram.bell m).fits = true →
    let now := s.heardAt ((Telegram.bell m).chars h)
    let x := s.meaning m.groups m.overlong
    let noted (c : EndCfg) (v : View) (r : RecordUnit) : RecordUnit :=
      if x = .obstruction then obstructionNoted c v r else r
    let entry (kind : EventKind) (c : EndCfg) : EventInfo :=
      { EventInfo.ofSection kind c.section_ with
        groups := some m.groups, overlong := m.overlong, meaning := some x, cls := x.cls }
    let rung : RecordUnit :=
      if s.replay.codes.length < 8 then s.records else s.records.notify .bellNotRung (e.val + 1)
    let acted : RecordUnit :=
      if x.cls.isSome = true ∧ c.canAccept = true then rung.notify .offer (e.val + 1)
      else noted c (s.view e) rung
    let received : RecordUnit := acted.take { entry .bellReceived c with relayed := m.relayed }
    let obstructed (u : State) (e : EndNo) (c : EndCfg) : Prop :=
      if c.owner then (u.view e).obstruction = true else (u.view e).localObs ≠ .clear
    ∃ u t : State, exec (.bellReceived h m) s = .next t ∧ t = u.react s ∧ t.clock = now ∧
      t.replay.codes = s.replay.codes ++
        (if codeFits m.groups = true ∧ s.replay.codes.length < 8 then [⟨e, m.groups⟩] else []) ∧
      (∀ k, (t.bell k).keyIn = (s.bell k).keyIn) ∧ t.integrity = s.integrity ∧
      (codeFits m.groups = false →
        u = { s with clock := now, line := { s.line with idleAt := now, cut := none } }) ∧
      (codeFits m.groups = true →
        (u.bell e).offer = (match x with
          | .offer k => if c.canAccept then some ⟨k, now⟩ else (s.bell e).offer
          | _ => (s.bell e).offer) ∧
        (x = .obstruction → obstructed u e c) ∧
        (s.switchedOut = false ∨ s.partner e = none → u.records = received ∧
          u.line.queue = s.line.queue ∧ (u.bell e).outstanding = (s.bell e).outstanding) ∧
        ∀ p z, s.switchedOut = true → s.partner e = some p → p ≠ e → s.endCfg p = some z →
          (s.takesAt p = true →
            u.line.queue = s.line.queue ++
              [⟨z.neighbour.val, .bell ⟨z.section_, m.overlong, true, m.groups⟩, some p⟩] ∧
            u.records = (noted z (s.view p) received).take (entry .bellRelayed z) ∧
            (∀ k, x = .offer k → (u.bell p).outstanding =
              if z.canRear then some ⟨k, now⟩ else (s.bell p).outstanding) ∧
            (x = .obstruction → obstructed u p z)) ∧
          (s.takesAt p = false → u.line.queue = s.line.queue ∧ (u.bell p).lost = true ∧
            u.records = received.notify .bellLost (p.val + 1)))

/-! ## The block line -/

/-- TRANSMIT_START: the head telegram takes the line after the idle gap and its wait, at the wait's end or,
where that has passed, at a bit boundary within the next bit (R76; that the boundaries are counted from the
wait's end is the model's reading: log entry 42). COLLISION before the eighth attempt: the sending stops at a
bit that was sent as 1, the idle gap is reckoned from it, the bits sent up to it are kept with the 0 that was
read back (the model's own field: log entries 12 and 28), and the attempt count rises (R77). The eighth: the
head leaves the queue with LINE BUSY and the attempt count 0; a REQUEST it carried, if still pending under its
number, is pending no more, and an OPEN or OPEN ACK is owed for 2 s later (R78, R86; that it is so where a newer
one is owed already is the model's choice: log entry 47); `u` is the state that the event's close,
`State.react`, then answers (the close is the model's: log entry 7). TRANSMIT_SUCCESS: the head leaves the queue
unless its content was replaced (R79). Own time is the model's (log entry 2), and which of the bits sent as 1 a
COLLISION falls at is a free value (log entry 42). That in LOCKDOWN a poisoned queue is sent from as a sound one
is the model's choice: log entry 68. -/
def Obligations.LineSending : Prop :=
  ∀ (q : TxEntry) (qs : List TxEntry) (s : State), s.line.queue = q :: qs →
    (s.transmits = true → s.line.sending = none → s.Calm →
      let due := s.line.idleAt + 5 *
        if s.line.attempt = 0 then 2 * s.cfg.address.val
        else (s.cfg.address.val + 16 * s.line.attempt) * 4
      ∃ t : State, exec .transmitStart s = .next t ∧
        (s.clock ≤ due → t.clock = due) ∧
        (due < s.clock → s.clock ≤ t.clock ∧ t.clock < s.clock + 5 ∧ (t.clock - due) % 5 = 0) ∧
        t = { s with clock := t.clock
                     line := { s.line with sending := some ⟨q, t.clock, false⟩, cut := none } }) ∧
    (∀ x, s.line.sending = some x → s.line.attempt < 7 → s.Calm →
      ∃ n, n < 10 * x.entry.body.length ∧ (s.sentBits x.entry)[n]? = some true ∧
        exec .collision s = .next { s with
          clock := max s.clock (x.began + 5 * n)
          line := { s.line with
            sending := none, attempt := s.line.attempt + 1
            idleAt := max s.clock (x.began + 5 * n) + 100
            cut := some ⟨x.began, (s.sentBits x.entry).take n ++ [false]⟩ } }) ∧
    (∀ x, s.line.sending = some x → 7 ≤ s.line.attempt → s.Calm →
      ∃ (n now : Nat) (u t : State), n < 10 * x.entry.body.length ∧
        (s.sentBits x.entry)[n]? = some true ∧ now = max s.clock (x.began + 5 * n) ∧
        exec .collision s = .next t ∧ t = u.react s ∧
        t.clock = now ∧ t.line.sending = none ∧ t.line.attempt = 0 ∧ t.line.idleAt = now + 100 ∧
        t.integrity = s.integrity ∧ u.line.queue = qs ∧
        (s.records.notices.length < 32 →
          ⟨.lineBusy, q.subject, s.records.time, s.records.timeValid⟩ ∈ t.records.notices) ∧
        (∀ p ∈ qs, p.body.coalesces = false → p ∈ t.line.queue) ∧
        (∀ m e c p, q.body = .request m → q.endNo = some e → s.endCfg e = some c →
          (s.view e).pending = some p → p.number = m.number →
          (u.view e).pending = none ∧
            ((s.view e).autoCancel = false → (s.view e).proof = none →
              (t.view e).pending = none)) ∧
        (∀ es, q.body = .opening es → u.line.owedOpen = some ⟨some (now + 96000), true⟩) ∧
        (∀ m e, q.body = .openAck m → q.endNo = some e →
          (u.lineEnd e).owedAck = some ⟨some (now + 96000), m.digestsMatch⟩)) ∧
    (∀ x, s.line.sending = some x → s.Calm →
      ∃ t : State, exec .transmitSuccess s = .next t ∧
        t.clock = max s.clock (x.began + 50 * x.entry.body.length) ∧
        t.line.sending = none ∧ t.line.attempt = 0 ∧ t.line.idleAt = t.clock + 100 ∧
        t.line.queue = (if x.replaced then q :: qs else qs) ∧
        t = { s with clock := t.clock, line := t.line })

/-- The law of the transmit queue (R80) is kept by every step, from every state that has it. -/
def Obligations.QueueLawKept : Prop :=
  ∀ s t : State, s.QueueLaw → step s = .next t → t.QueueLaw

/-- A queue under the law holds at most 16 telegrams, so a coalescing telegram always finds a place
(R80). -/
def Obligations.QueueHoldsSixteen : Prop :=
  ∀ s : State, s.QueueLaw → s.line.queue.length ≤ 16 ∧
    (s.line.queue.filter fun q => q.body.coalesces).length ≤ 7

/-- The timers of the line unit. END_REPORT_STALE and SECTION_STATE_STALE: 6 s without a newer telegram make the
freshness stale; STALE is raised at each end owned toward the station, or at the mirror's end.
SECTION_STATE_REFRESH, END_REPORT_REFRESH, ANSWER_ECHO_EXPIRY and OWED_REOFFER: the SECTION STATE of the fields
as they stand, with the echo while its 4 s run (that it is carried for strictly less than 4 s is the model's
choice: log entry 12), and the END REPORT as it stands are in the queue and their timers restarted (R85), the
echo is gone, an owed OPEN or OPEN ACK is built afresh, joins the queue and stays owed until it is sent (R86;
that an offered telegram's mark stands with no time is the model's: log entry 13). Own time is the model's: log
entry 2. -/
def Obligations.FreshnessEnds : Prop :=
  (∀ (a : Addr) (e : EndNo) (t0 : Nat) (s : State), s.working = true → s.Calm →
    ((s.stationRec a).reportAt = some t0 → (s.stationRec a).fresh = true →
      ∃ t : State, exec (.endReportStale a) s = .next t ∧
        t.clock = max s.clock (t0 + 288000) ∧
        t.line.stations = upd s.line.stations a (fun r => { r with fresh := false }) ∧
        (∀ e c, s.endCfg e = some c → c.neighbour = a → c.owner = true →
          s.records.notices.length < 24 →
          ⟨.stale, e.val + 1, s.records.time, s.records.timeValid⟩ ∈ t.records.notices) ∧
        t.integrity = s.integrity ∧ t.channels = s.channels) ∧
    ((s.lineEnd e).stateAt = some t0 → (s.lineEnd e).fresh = true →
      ∃ t : State, exec (.sectionStateStale e) s = .next t ∧
        t.clock = max s.clock (t0 + 288000) ∧ (t.lineEnd e).fresh = false ∧
        (t.lineEnd e).stateAt = some t0 ∧ t.line.stations = s.line.stations ∧
        (s.records.notices.length < 24 →
          ⟨.stale, e.val + 1, s.records.time, s.records.timeValid⟩ ∈ t.records.notices))) ∧
  ∀ (e : EndNo) (c : EndCfg) (s : State), s.working = true → s.Calm → s.mute = false →
    (s.endCfg e = some c → c.owner = true → s.badStatic (.sectionEnd e) = false →
      ∃ t : State, exec (.sectionStateRefresh e) s = .next t ∧
        (t.lineEnd e).offeredAt = t.clock ∧
        t.clock = max s.clock ((s.lineEnd e).offeredAt + 96000) ∧
        (⟨c.neighbour.val, .sectionState ⟨c.section_, (s.view e).state, (s.view e).dir,
            (s.view e).acc, (s.view e).cls, (s.view e).obstruction, s.service == .restrictive,
            ((s.lineEnd e).echo.filter fun x => t.clock < x.answeredAt + 192000).map (·.msg)⟩,
          some e⟩ : TxEntry) ∈ t.line.queue ∧
        t.rest = { s.rest with clock := t.clock }) ∧
    ((∀ e, s.badStatic (.sectionEnd e) = false) →
      ∃ t : State, exec .endReportRefresh s = .next t ∧ t.line.reportAt = t.clock ∧
        t.clock = max s.clock (s.line.reportAt + 96000) ∧
        (⟨0, .endReport t.report, none⟩ : TxEntry) ∈ t.line.queue ∧
        t.rest = { s.rest with clock := t.clock }) ∧
    (∀ x, (s.lineEnd e).echo = some x →
      exec (.answerEchoExpiry e) s = .next { s with
        clock := max s.clock (x.answeredAt + 192000)
        line := { s.line with ends := upd s.line.ends e fun l => { l with echo := none } } }) ∧
    (∀ due b, s.line.owedOpen = some ⟨some due, b⟩ → s.takesSingle = true →
      (∀ e, s.badStatic (.sectionEnd e) = false) →
      exec (.owedReoffer .opening) s = .next { s with
        clock := max s.clock due
        line := { s.line with
          queue := s.line.queue ++ [⟨0, s.openTelegram, none⟩]
          owedOpen := some ⟨none, true⟩ } }) ∧
    (∀ due b, s.endCfg e = some c → (s.lineEnd e).owedAck = some ⟨some due, b⟩ →
      s.takesSingle = true → s.badStatic (.sectionEnd e) = false →
      exec (.owedReoffer (.ack e)) s = .next { s with
        clock := max s.clock due
        line := { s.line with
          queue := s.line.queue ++ [⟨c.neighbour.val,
            .openAck ⟨c.section_, b, (s.view e).state, (s.view e).dir⟩, some e⟩]
          ends := upd s.line.ends e fun l => { l with owedAck := some ⟨none, b⟩ } } })

/-- END_REPORT_RECEIVED, used: the sender's freshness is fresh from this moment, every sound used subscription
entry that names the sender takes the state the telegram carries, FAILED where it carries none (R90; that a
channel carried twice counts as first listed is the model's choice: log entry 67), and every record owned toward
the sender takes as far status what the telegram carries for its section (R93); no other station record changes.
From a station marked as in LOCKDOWN it clears the mark where its service state is another, and is not otherwise
used; with LOCKDOWN it is discarded (R88). The neighbour's service state is kept with its station record by the
model's choice (log entry 11). Own time is the model's: log entry 2. -/
def Obligations.EndReportTaken : Prop :=
  (∀ (h : Header) (a : Addr) (m : ReportMsg) (s : State), s.Listening → s.ForUs h a →
    (Telegram.endReport m).fits = true → (s.stationRec a).lockdown = false →
    ∃ t : State, exec (.endReportReceived h m) s = .next t ∧
      t.clock = s.heardAt ((Telegram.endReport m).chars h) ∧
      t.line.stations = upd s.line.stations a (fun r =>
        { r with reportAt := some t.clock, fresh := true, service := some m.service }) ∧
      (∀ (i : SubNo) (c : SubCfg), look s.cfg.subs i = some c → c.publisher = a →
        s.badStatic (.sub i) = false →
        t.sub i = ⟨((m.tracks.find? fun x => x.1 == c.channel).map (·.2)).getD .failed,
          some t.clock⟩) ∧
      (∀ (i : SubNo), (∀ c, look s.cfg.subs i = some c → c.publisher ≠ a) → t.sub i = s.sub i) ∧
      (∀ (e : EndNo) (c : EndCfg) (l : EndLine), s.endCfg e = some c → c.neighbour = a →
        c.owner = true → l ∈ m.ends → l.section_ = c.section_ →
        (∀ x ∈ m.ends, x.section_ = c.section_ → x = l) →
        (t.view e).farStatus = some ⟨l.commutator, l.release, l.releaseNo, l.proofComplete⟩) ∧
      t.channels = s.channels ∧ t.integrity = s.integrity) ∧
  ∀ (h : Header) (a : Addr) (m : ReportMsg) (s : State), s.Listening → s.ForUs h a →
    (Telegram.endReport m).fits = true → (s.stationRec a).lockdown = true →
    ∃ t : State, exec (.endReportReceived h m) s = .next t ∧
      t.clock = s.heardAt ((Telegram.endReport m).chars h) ∧
      t.line.stations = (if m.service = .lockdown then s.line.stations else
        upd s.line.stations a fun r => { r with lockdown := false }) ∧
      (∀ i, t.sub i = s.sub i) ∧ (∀ e, (t.view e).farStatus = (s.view e).farStatus) ∧
      t.channels = s.channels ∧ t.integrity = s.integrity

/-- FAILED_RECEIVED: the sender's lockdown mark is set and its END REPORT freshness stale, and so is the
SECTION STATE freshness of every section end shared with it. -/
def Obligations.FailedTaken : Prop :=
  ∀ (h : Header) (a : Addr) (ids : List Nat) (s : State), s.Listening → s.ForUs h a →
    (Telegram.failed ids).fits = true → (s.stationRec a).lockdown = false →
    ∃ t : State, exec (.failedReceived h ids) s = .next t ∧
      (t.stationRec a).lockdown = true ∧ (t.stationRec a).fresh = false ∧
      (∀ b, b ≠ a → t.stationRec b = s.stationRec b) ∧
      (∀ e c, s.endCfg e = some c → c.neighbour = a → (t.lineEnd e).fresh = false ∧
        (c.owner = false → (t.view e).state = .closed)) ∧
      (∀ e c, s.endCfg e = some c → c.neighbour ≠ a → (t.lineEnd e).fresh = (s.lineEnd e).fresh)

/-- OPEN_RECEIVED: the sender's lockdown mark is cleared, and at each owned section shared with it the digest
match is YES exactly where the OPEN lists the section with the same digest and the other role; a record CLEAR
there goes to BLOCKED. At each shared section of either role an OPEN ACK is offered, with whether the digests
match and the view as the peer restart rules leave it: in the queue where it has room, owed for 2 s later where
it is full (R82, R86); and DIGEST MISMATCH is raised where they do not match (R116). Own time is the model's:
log entry 2. -/
def Obligations.OpenTaken : Prop :=
  ∀ (h : Header) (a : Addr) (es : List OpenEntry) (s : State), s.Listening → s.ForUs h a →
    (Telegram.opening es).fits = true →
    let matched (c : EndCfg) : Bool := es.any fun x => x.section_ == c.section_ &&
      x.owner == !c.owner && x.digest == sectionDigest s.cfg.address c
    let shown (e : EndNo) (c : EndCfg) : SecState × Direction :=
      if c.owner then
        if (s.view e).state = .clear then (.blocked, .none) else ((s.view e).state, (s.view e).dir)
      else (.closed, .none)
    ∃ t : State, exec (.openReceived h es) s = .next t ∧
      t.clock = s.heardAt ((Telegram.opening es).chars h) ∧
      (t.stationRec a).lockdown = false ∧
      (∀ e c, s.endCfg e = some c → c.neighbour = a → c.owner = true →
        ((t.view e).digest = .yes ↔ ∃ x ∈ es, x.section_ = c.section_ ∧ x.owner = false ∧
          x.digest = sectionDigest s.cfg.address c) ∧
        (t.view e).digest ≠ .unknown ∧
        ((s.view e).state = .clear → (t.view e).state = .blocked)) ∧
      (∀ e c, s.endCfg e = some c → c.neighbour = a → c.owner = false →
        (t.view e).state = .closed) ∧
      ∀ e c, s.endCfg e = some c → c.neighbour = a →
        (s.badStatic (.sectionEnd e) = false → s.line.singles + (s.endsWith a).length ≤ 9 →
          (⟨a.val, .openAck ⟨c.section_, matched c, (shown e c).1, (shown e c).2⟩, some e⟩ : TxEntry)
            ∈ t.line.queue) ∧
        (9 ≤ s.line.singles → (t.lineEnd e).owedAck = some ⟨some (t.clock + 96000), matched c⟩) ∧
        (matched c = false → s.records.notices.length < 18 →
          ⟨.digestMismatch, e.val + 1, s.records.time, s.records.timeValid⟩ ∈ t.records.notices)

/-- OPEN_ACK_RECEIVED: at the far end the owner's state and direction enter the mirror, class absent and
freshness untouched; at the owner the digest match is set. -/
def Obligations.OpenAckTaken : Prop :=
  ∀ (h : Header) (a : Addr) (e : EndNo) (c : EndCfg) (m : AckMsg) (s : State), s.Listening →
    s.ForUs h a → s.Shares a m.section_ e c → (Telegram.openAck m).fits = true →
    ∃ t : State, exec (.openAckReceived h m) s = .next t ∧
      (c.owner = false → (t.view e).state = m.state ∧ (t.view e).dir = m.dir ∧
        (t.view e).cls = none ∧ (t.view e).acc = (s.view e).acc ∧
        (t.lineEnd e).fresh = (s.lineEnd e).fresh) ∧
      (c.owner = true → (t.view e).digest = if m.digestsMatch then .yes else .no)

/-- SECTION_STATE_RECEIVED at the far end: the telegram's fields replace the mirror's, and its freshness is
fresh from this moment. An entry to CLEAR toward the neighbour under a new number, the view sound, the
release lever at NORMAL and the station not switched out, makes the release AVAILABLE under that number
(R96); a view that does not show CLEAR leaves none, one that is not toward the neighbour leaves none
AVAILABLE, and a CONSUMED release stands while the view shows CLEAR under its number (R98). Own time is the
model's: log entry 2. -/
def Obligations.SectionStateTaken : Prop :=
  ∀ (h : Header) (a : Addr) (e : EndNo) (c : EndCfg) (m : StateMsg) (s : State), s.Listening →
    s.ForUs h a → s.Shares a m.section_ e c → c.owner = false →
    (Telegram.sectionState m).fits = true →
    ∃ t : State, exec (.sectionStateReceived h m) s = .next t ∧
      t.clock = s.heardAt ((Telegram.sectionState m).chars h) ∧
      (t.view e).state = m.state ∧ (t.view e).dir = m.dir ∧ (t.view e).acc = m.acc ∧
      (t.view e).cls = m.cls ∧ (t.view e).obstruction = m.obstruction ∧
      (t.view e).ownerFault = m.ownerFault ∧ (t.lineEnd e).fresh = true ∧
      (t.lineEnd e).stateAt = some t.clock ∧ t.integrity = s.integrity ∧ t.channels = s.channels ∧
      (∀ l, c.canRear = true → c.releaseLever = some l → s.service = .inService →
        s.switch.state = .inn → (s.release e).state = .none → (s.lever l).position = .normal →
        s.badLever l = false → s.badStatic (.sectionEnd e) = false →
        s.isPoisoned (.mirror e) = false → m.state = .clear → m.dir = c.away →
        (s.view e).clearUnder m.acc = false → m.ownerFault = false →
        m.obstruction = false → (s.view e).localObs = .clear →
        t.release e = ⟨.available, m.acc, none⟩) ∧
      (m.state ≠ .clear → (t.release e).state = .none) ∧
      (m.dir ≠ c.away → (t.release e).state ≠ .available) ∧
      ((s.release e).state = .consumed → m.state = .clear → m.acc = (s.release e).acc →
        t.release e = s.release e)

/-- REQUEST_RECEIVED in IN SERVICE, decided at once and answered (R101). At the owner: ACCEPT by the checks
of R104 in order, CLEAR OUTWARD under the next number with the class asked; OCCUPY of a record CLEAR
OUTWARD, OCCUPIED (R107); ARRIVED of one OCCUPIED OUTWARD, BLOCKED (R110); CANCEL of one CLEAR OUTWARD, by
the release and the demand (R112, R131), BLOCKED with the release NONE; a refused one leaves the record's
state. At the far end CANCEL alone is decided, by the release and the demand, and changes no view; the
other kinds are refused NOT BLOCKED. The ANSWER stands in the queue, and the owner keeps its echo. Own time
is the model's: log entry 2. -/
def Obligations.ArrivedRequestDecided : Prop :=
  ∀ (h : Header) (a : Addr) (e : EndNo) (c : EndCfg) (m : RequestMsg) (s : State), s.Listening →
    s.ForUs h a → s.Shares a m.section_ e c → (Telegram.request m).fits = true →
    s.service = .inService → s.badStatic (.sectionEnd e) = false → s.takesSingle = true →
    let v := s.view e
    let now := s.heardAt ((Telegram.request m).chars h)
    let showing (st : SecState) : Bool := v.state == st && v.dir == .outward
    let cancelled : Option Reason :=
      match (s.release e).state, s.demand e, (s.release e).normalAt with
      | .consumed, some d, _ => if d.state == .waiting then none else some .releaseUsed
      | .consumed, none, some at_ => if at_ + 2880000 ≤ now then none else some .releaseUsed
      | .consumed, none, none => some .releaseUsed
      | _, _, _ => none
    let leverFree : Bool := s.switch.state == .out && s.isThroughRear e ||
      match c.releaseLever with
      | some l => (s.lever l).position == .normal && !s.badLever l
      | none => false
    let accepting : Option Reason :=
      if c.kind ≠ .twoWay ∨ v.state ≠ .blocked then some .notBlocked
      else if v.obstruction then some .obstruction
      else if leverFree = false then some .releaseHeld
      else if v.pending.isSome then some .requestPending
      else none
    let verdict : Option Reason :=
      match c.owner, m.kind with
      | true, .accept => accepting
      | true, .occupy => if showing .clear then none else some .notBlocked
      | true, .arrived => if showing .occupied then none else some .notBlocked
      | true, .cancel => if showing .clear then cancelled else some .notBlocked
      | false, .cancel => cancelled
      | false, _ => some .notBlocked
    let o : Outcome :=
      match verdict with
      | some r => .refused r
      | none => .taken
    ∃ t : State, exec (.requestReceived h m) s = .next t ∧ t.clock = now ∧
      (⟨c.neighbour.val, .answer ⟨c.section_, m.number, o⟩, some e⟩ : TxEntry) ∈ t.line.queue ∧
      (c.owner = true → (t.lineEnd e).echo = some ⟨⟨m.number, o⟩, t.clock⟩) ∧
      (verdict = none → c.owner = true →
        (m.kind = .accept → (t.view e).state = .clear ∧ (t.view e).dir = .outward ∧
          (t.view e).cls = some m.cls ∧ (t.view e).acc = (v.acc + 1) % 256) ∧
        (m.kind = .occupy → (t.view e).state = .occupied ∧ (t.view e).dir = .outward ∧
          (t.view e).cls = v.cls) ∧
        (m.kind = .arrived ∨ m.kind = .cancel → (t.view e).state = .blocked ∧
          (t.view e).dir = .none ∧ (t.view e).cls = none)) ∧
      (verdict = none → m.kind = .cancel → t.release e = Release.none ∧ t.demand e = none) ∧
      (verdict ≠ none ∨ c.owner = false →
        (t.view e).state = v.state ∧ (t.view e).dir = v.dir ∧ (t.view e).acc = v.acc)

/-- ANSWER_RECEIVED: an answer under the pending request's number settles it, where nothing waits
for the settlement, save a TAKEN to an ACCEPT; one under another number, or a TAKEN to an ACCEPT, leaves the
request pending and the state as it was. Own time is the model's: log entry 2. -/
def Obligations.AnswerSettles : Prop :=
  ∀ (h : Header) (a : Addr) (e : EndNo) (c : EndCfg) (m : AnswerMsg) (p : Request) (s : State),
    s.Listening → s.ForUs h a → s.Shares a m.section_ e c → (Telegram.answer m).fits = true →
    (s.view e).pending = some p → (s.view e).autoCancel = false → (s.view e).proof = none →
    s.heardAt ((Telegram.answer m).chars h) ≤ p.deadline →
    ∃ t : State, exec (.answerReceived h m) s = .next t ∧
      (p.number = m.number → ¬(p.kind = .accept ∧ m.outcome = .taken) →
        (t.view e).pending = none) ∧
      (p.number ≠ m.number ∨ p.kind = .accept ∧ m.outcome = .taken →
        (t.view e).pending = some p ∧ (t.view e).state = (s.view e).state)

/-- RECEIVED_TELEGRAM_DISCARDED: a good telegram that names this station as its source raises
ADDRESS CLASH, before its destination is looked at (the model's reading of R74: log entry 12), characters
that spell no good telegram raise nothing, and either only takes the line's time (R83): n characters take
10 × n bit times and the 20 of the idle gap after it, from the idle gap before them (R74), or from the moment
at which this station began with them, where they are the telegram that went on at its collision (R77; that
they are known by their bits is the model's: log entry 12). Own time is the model's: log entry 2. -/
def Obligations.ClashAndDiscard : Prop :=
  ∀ (cs : List Byte) (spoiled : Bool) (s : State), s.power ≠ .held → s.line.sending = none → s.Calm →
    ∃ t : State, exec (.receivedTelegramDiscarded cs spoiled) s = .next t ∧
      t.clock = max s.clock ((match s.line.cut with
        | some x => if x.bits <+: lineBits cs then x.began else s.line.idleAt
        | none => s.line.idleAt) + 5 * (10 * cs.length + 20)) ∧
      t.line = { s.line with idleAt := t.clock, cut := none } ∧
      t = { s with clock := t.clock, line := t.line, records := t.records } ∧
      (∀ h x, parseTelegram cs = some (h, x) → spoiled = false → h.src = s.cfg.address.val →
        s.working = true → s.mute = false → t.records = s.records.notify .addressClash h.src) ∧
      (parseTelegram cs = none ∨ spoiled = true ∨ s.working = false → t.records = s.records)

/-! ## Sections and switching -/

/-- REQUEST_LAPSE and ARRIVAL_RELEASE_WAIT_END: the pending request is settled at its deadline where
nothing waits for it, and the proof is complete when its wait has passed, out of switching. Own time
is the model's: log entry 2. -/
def Obligations.DeadlinesPass : Prop :=
  ∀ (e : EndNo) (c : EndCfg) (s : State), s.working = true → s.Calm → s.endCfg e = some c →
    (∀ p, (s.view e).pending = some p → (s.view e).autoCancel = false → (s.view e).proof = none →
      ∃ t : State, exec (.requestLapse e) s = .next t ∧ (t.view e).pending = none ∧
        t.clock = max s.clock p.deadline ∧ (t.view e).state = (s.view e).state ∧
        t.rest = { s.rest with clock := t.clock }) ∧
    (∀ p w, (s.view e).proof = some p → p.waitUntil = some w → s.switchedOut = false →
      ∃ t : State, exec (.arrivalReleaseWaitEnd e) s = .next t ∧ t.clock = max s.clock w ∧
        (t.view e).proof = some { p with complete := true, waitUntil := none } ∧
        (t.view e).state = (s.view e).state)

/-- AUTO_CANCEL_RETRY and AUTO_ARRIVAL_RETRY at a far end: the CANCEL, or the ARRIVED of a complete
proof while switched out, is made again under the next request number, pending for 4 s. Own time is
the model's: log entry 2. -/
def Obligations.RetriesMakeRequests : Prop :=
  ∀ (e : EndNo) (c : EndCfg) (s : State) (due : Nat), s.working = true → s.Calm →
    s.endCfg e = some c → s.badStatic (.sectionEnd e) = false → s.takesSingle = true →
    (s.view e).pending = none →
    let v := s.view e
    let made (t : State) (k : ReqKind) (o : Origin) : Prop :=
      t.clock = max s.clock due ∧ (t.view e).nextReq = (v.nextReq + 1) % 256 ∧
        (t.view e).pending = some ⟨k, v.nextReq, t.clock + 192000, o⟩ ∧
        (⟨c.neighbour.val, .request ⟨c.section_, v.nextReq, k, 0⟩, some e⟩ : TxEntry)
          ∈ t.line.queue
    (v.cancelRetry = some due → v.autoCancel = true →
      ∃ t : State, exec (.autoCancelRetry e) s = .next t ∧ made t .cancel .autoCancel) ∧
    (∀ p, v.proof = some p → p.complete = true → p.retryAt = some due → c.owner = false →
      v.state = .occupied → v.dir = c.toHere → s.autoArrives e = true →
      (s.lineEnd e).fresh = true →
      ∃ t : State, exec (.autoArrivalRetry e) s = .next t ∧ made t .arrived (.autoArrival p.refusedSeen))

/-- DEMAND_RETRY while OUT: where the through accepting end is owned and every check of R102 but the
home lever's passes, that section becomes CLEAR INWARD under the next acceptance number, the offer
record is consumed, and the demand is ACCEPTED under that number. Own time is the model's: log entry
2. -/
def Obligations.DemandRetryAccepts : Prop :=
  ∀ (e a : EndNo) (c : EndCfg) (d : Demand) (due : Nat) (s : State), s.working = true → s.Calm →
    s.switch.state = .out → s.demand e = some d → d.state = .waiting → d.retryAt = some due →
    s.throughAccepting e = some a → a ≠ e → s.endCfg a = some c → c.owner = true →
    s.badStatic (.sectionEnd a) = false → s.ownerChecks a c false = none →
    (∀ k, s.endCfg e = some k → s.releaseStands e k = true) → (s.release e).state = .consumed →
    ∃ t : State, exec (.demandRetry e) s = .next t ∧ t.clock = max s.clock due ∧
      (t.view a).state = .clear ∧ (t.view a).dir = .inward ∧
      (t.view a).acc = ((s.view a).acc + 1) % 256 ∧ (t.bell a).offer = none ∧
      t.demand e = some { d with
        state := .accepted, partnerNo := (t.view a).acc, lastRefusal := none, retryAt := none }

/-- TAKEN_CHANGE of a commutator contact in IN SERVICE, out of switching, the end's static record sound and no
request pending. The one contact closed gives the position, and a new position is a move (R99): to CLEAR an
acceptance, taken by the checks of R102 at the owner or asked by those of R103 at the far end; to OCCUPIED the
opening gesture at a CLOSED record (R117), or an occupation of a view CLEAR toward here (R107); to BLOCKED the
obstruction cleared (R114), the opening (R117), the cancellation asked (R111) or the arrival (R110). A refused
move is registered and marked (R105; that the mark is this move's whatever mark stood before is the model's
choice: log entry 32) and leaves the state. Contacts closed together keep the position and set the contact fault
(R99). `u` is the state that the event's close, `State.react`, then answers (the close is the model's: log entry
7). Own time is the model's: log entry 2. -/
def Obligations.CommutatorMoves : Prop :=
  ∀ (e : EndNo) (p : CommPos) (c : EndCfg) (s : State), s.working = true → s.scanned = true →
    s.Calm → s.service = .inService → s.switch.state = .inn → s.endCfg e = some c →
    c.commutator = true → s.badStatic (.sectionEnd e) = false →
    let i : Instr := .takenChange (.commutator e p)
    let k := (s.comm e).flip p
    let v := s.view e
    let now := max s.clock (s.scanAt + 240)
    let moved (dest : CommPos) (t : State) : Prop :=
      exec i s = .next t ∧ t.clock = now ∧ t.comm e = { k with pos := dest, fault := false }
    let asked (dest : CommPos) (kind : ReqKind) (cls : Nat) : Prop :=
      s.takesAt e = true → ∃ t : State, moved dest t ∧ (t.view e).state = v.state ∧
        (t.view e).dir = v.dir ∧ (t.view e).nextReq = (v.nextReq + 1) % 256 ∧
        (t.view e).pending = some ⟨kind, v.nextReq, now + 192000, .commutator⟩ ∧
        (⟨c.neighbour.val, .request ⟨c.section_, v.nextReq, kind, cls⟩, some e⟩ : TxEntry)
          ∈ t.line.queue
    let refused (dest : CommPos) (records : RecordUnit) (r : Reason) : Prop :=
      ∃ u t : State, moved dest t ∧ t = u.react s ∧
        u.records = records.take { EventInfo.ofSection .refused c.section_ with reason := some r } ∧
        (t.view e).state = v.state ∧ (t.view e).dir = v.dir ∧ (t.view e).acc = v.acc ∧
        (t.view e).refused = some (if dest = .blocked then .blockedMove else .awayMove)
    let blocked (t : State) : Prop :=
      (t.view e).state = .blocked ∧ (t.view e).dir = .none ∧ (t.view e).cls = none ∧
        (t.view e).acc = v.acc ∧ (t.view e).obstruction = false ∧ (t.view e).proof = none
    (∀ dest : CommPos, k.contact = some dest → (s.comm e).pos ≠ dest → v.pending = none →
      (dest = .clear → c.canAccept = true →
        (∀ o, c.owner = true → v.state = .blocked → v.obstruction = false →
          (s.bell e).offer = some o → c.clearance.all s.knownClear = true →
          (∃ l, c.homeLever = some l ∧ (s.lever l).position = .normal ∧ s.badLever l = false) →
          (s.stationRec c.neighbour).fresh = true →
          (s.stationRec c.neighbour).service = some .inService →
          v.farStatus.map (·.release) = some .none →
          ∃ t : State, moved dest t ∧ (t.view e).state = .clear ∧ (t.view e).dir = .inward ∧
            (t.view e).cls = some o.cls ∧ (t.view e).acc = (v.acc + 1) % 256 ∧
            (t.bell e).offer = none) ∧
        (∀ r, c.owner = true → s.ownerChecks e c true = some r → refused dest s.records r) ∧
        (c.owner = false → s.farChecks e c true = none → asked dest .accept (s.offerClass e)) ∧
        (∀ r, c.owner = false → s.farChecks e c true = some r → refused dest s.records r)) ∧
      (dest = .occupied →
        (c.owner = true → v.state = .closed → ∃ t : State, moved dest t ∧
          (t.view e).gesture = true ∧ (t.view e).state = .closed) ∧
        (c.owner = true → v.state = .clear → v.dir = c.toHere → ∃ t : State, moved dest t ∧
          (t.view e).state = .occupied ∧ (t.view e).dir = v.dir ∧ (t.view e).cls = v.cls ∧
          (t.view e).acc = v.acc ∧ (t.view e).proof.isSome = true) ∧
        (c.owner = false → v.state = .clear → v.dir = c.toHere →
          ((s.lineEnd e).fresh = true → asked dest .occupy 0) ∧
          ((s.lineEnd e).fresh = false → refused dest s.records .farSilent))) ∧
      (dest = .blocked →
        (c.owner = true → v.obstruction = true → v.state ≠ .closed →
          ∃ t : State, moved dest t ∧ blocked t) ∧
        (c.owner = true → v.obstruction = false → v.state = .closed → v.gesture = true →
          (v.digest = .yes → (s.stationRec c.neighbour).fresh = true →
            ∃ t : State, moved dest t ∧ blocked t ∧ (t.view e).gesture = false) ∧
          (v.digest = .no →
            refused dest (s.records.notify .digestMismatch (e.val + 1)) .fault)) ∧
        (¬(c.owner = true ∧ v.obstruction = true) → v.state = .clear → v.dir = c.toHere →
          asked dest .cancel 0) ∧
        (∀ x, ¬(c.owner = true ∧ v.obstruction = true) → v.state = .occupied → v.dir = c.toHere →
          v.proof = some x → c.owner = true ∨ (s.lineEnd e).fresh = true →
          (x.complete = false → refused dest s.records .notProven) ∧
          (x.complete = true →
            (∃ l, c.homeLever = some l ∧ (s.lever l).position = .normal ∧
              s.badLever l = false) →
            (c.owner = true → ∃ t : State, moved dest t ∧ blocked t) ∧
            (c.owner = false → asked dest .arrived 0))))) ∧
    (k.conflict = true → (s.comm e).fault = false →
      ∃ t : State, exec i s = .next t ∧ t.comm e = { k with fault := true } ∧
        look t.integrity.tallies 3 = min (look s.integrity.tallies 3 + 1) 255 ∧
        (s.records.notices.length < 32 →
          ⟨.commutatorFault, e.val + 1, s.records.time, s.records.timeValid⟩ ∈ t.records.notices))

/-- TAKEN_CHANGE of the switching key. Turned to OUT while IN: where every pair passes every check of R126
the station is OUT, SWITCHED OUT registered and the keys of its pair ends ignored with no code; otherwise it
stays IN with the mark set, the refusal kept and registered and SWITCH REFUSED raised. Turned to OUT while IN
PENDING it is OUT again (R133). Turned to IN, the mark is cleared, and from OUT the station is IN PENDING,
or IN with a cause latched where every pair end is BLOCKED with its release NONE (R133). A section of a pair
that is CLOSED forces IN, the cause SECTION CLOSED where none was and the mark set while the key is at OUT
(R134), and on a return to IN the ignored keys go to HOLD OFF (R61, R135). `u` is the state that the event's
close, `State.react`, then answers (the close is the model's: log entry 7). -/
def Obligations.SwitchingKey : Prop :=
  (∀ s : State, s.working = true → s.scanned = true → s.Calm → s.hasPairs = true →
    let i : Instr := .takenChange .switchKey
    let open_ : Prop := ∀ e ∈ s.pairEnds, (s.view e).state ≠ .closed
    let passes (p : PairNo) (c : PairCfg) : Prop :=
      s.badStatic (.pair p) = false ∧ (∀ l ∈ c.levers, s.atReverse l = true) ∧
        ∀ e ∈ [c.endA, c.endB], s.badStatic (.sectionEnd e) = false ∧
          (s.view e).state = .blocked ∧ (s.bell e).outstanding = none ∧
          (s.view e).pending = none ∧ (s.release e).state = .none ∧
          ∃ k, s.endCfg e = some k ∧ s.staleView e k = false
    (s.switch.keyIn.closed = false →
      (s.switch.state = .inn → s.service = .inService →
        (∀ p c, s.pairCfg p = some c → passes p c) →
        ∃ u t : State, exec i s = .next t ∧ t = u.react s ∧ t.switch.state = .out ∧
          t.switch.refusal = none ∧ t.switch.keyIn = ⟨true, 0⟩ ∧
          u.records = s.records.take (EventInfo.plain .switchedOut) ∧
          ∀ e ∈ s.pairEnds, (t.bell e).phase = .ignored ∧ (t.bell e).code = none) ∧
      (∀ r p, s.switch.state = .inn → s.switchRefusal = some (r, p) →
        ∃ u t : State, exec i s = .next t ∧ t = u.react s ∧ t.switch.state = .inn ∧
          t.switch.mark = true ∧ t.switch.refusal = some r ∧
          u.records = (s.records.take { EventInfo.plain .refused with reason := some r }).notify
            .switchRefused (p.val + 1)) ∧
      (s.switch.state = .inPending → open_ →
        ∃ t : State, exec i s = .next t ∧ t.switch.state = .out)) ∧
    (s.switch.keyIn.closed = true →
      (s.switch.state = .inn →
        ∃ t : State, exec i s = .next t ∧ t.switch.state = .inn ∧ t.switch.mark = false) ∧
      (s.switch.state = .out → open_ →
        (∀ e c, s.endCfg e = some c → s.releaseStands e c = true) →
        ∃ t : State, exec i s = .next t ∧ t.switch.mark = false ∧
          (s.switchInHolds = true → t.switch.state = .inn ∧
            t.switch.cause = some (s.switch.cause.getD .key)) ∧
          (s.switchInHolds = false → t.switch.state = .inPending ∧
            t.switch.cause = s.switch.cause)))) ∧
  ∀ s : State,
    let freed : Prop := ∀ e, (s.bell e).phase = .ignored →
      (s.judgeSwitch.bell e).phase =
        .holdOff (if (s.bell e).keyIn.closed then none else some s.clock)
    (s.switchedOut = true → (∃ e ∈ s.pairEnds, (s.view e).state = .closed) →
      s.judgeSwitch.switch = { s.switch with
        state := .inn, cause := some (s.switch.cause.getD .sectionClosed)
        mark := s.switch.mark || (s.hasPairs && s.switch.keyIn.closed) } ∧ freed) ∧
    (s.switch.state = .inPending → s.switchInHolds = true →
      s.judgeSwitch.switch = { s.switch with
        state := .inn, cause := some (s.switch.cause.getD .key) } ∧ freed)

/-- Every step keeps the law of switching (R125), from every state that has it: switched out only in IN
SERVICE with no section of a through pair CLOSED. It keeps the law of direction and class (R93) where the
section ends stay as configured or are loaded anew, and the law of the release records (R96, R98). -/
def Obligations.SwitchAndSectionLawsKept : Prop :=
  ∀ s t : State, step s = .next t →
    (s.SwitchLaw → t.SwitchLaw) ∧
    (t.cfg.ends = s.cfg.ends ∨ t.service = .loaded → s.SectionLaw → t.SectionLaw) ∧
    (s.ReleaseLaw → t.ReleaseLaw)

/-! ## Integrity and records -/

/-- SCRUB_VISIT: a sound record is passed and the scrub position moves on; a static record visited damaged in IN
SERVICE is poisoned, a dynamic one is given its value of section 8.1 and its poison cleared in the event (R139),
of every dynamic kind, and either is a CHECK WORD fault, met by SCRUB with effect NONE, that makes the station
RESTRICTIVE (the damage itself is a physical event: log entry 5; that the pause of R70 goes with the replay
queue is the model's choice: log entry 29, and so is that a static record from which a value is taken is read as it
is held, poisoned or not: log entry 72). A timer's full duration is counted in own time, which is the model's: log
entry 2. -/
def Obligations.ScrubberVisits : Prop :=
  ∀ (s : State), s.live = true → s.panel.command ≠ some .resume → s.Calm →
    (∃ t : State, exec (.scrubVisit []) s = .next t ∧
      t.integrity = { s.integrity with
        scrubAt := if s.integrity.scrubAt + 1 < s.scrubOrder.length then s.integrity.scrubAt + 1
          else 0 } ∧
      t.clock = s.clock ∧ t.channels = s.channels) ∧
    (∀ r : RecordId, s.scrubOrder[s.integrity.scrubAt]? = some r → r.isStatic = true →
      s.isPoisoned r = false → s.service = .inService →
      ∃ t : State, exec (.scrubVisit [r]) s = .next t ∧ t.service = .restrictive ∧
        t.isPoisoned r = true ∧
        t.integrity.report = some ⟨.checkWord, .record r, some .scrub, .none,
          s.records.time, s.records.timeValid, some .proving, false, false, false⟩) ∧
    (∀ r : RecordId, s.scrubOrder[s.integrity.scrubAt]? = some r → r.isStatic = false →
      s.isPoisoned r = false → s.service = .inService →
      ∃ t : State, exec (.scrubVisit [r]) s = .next t ∧ t.service = .restrictive ∧
        t.integrity.poisoned = s.integrity.poisoned ∧ t.integrity.damaged = [] ∧
        t.integrity.report = some ⟨.checkWord, .record r, some .scrub, .none,
          s.records.time, s.records.timeValid, some .proving, false, false, false⟩ ∧
        (∀ c, r = .channel c → t.channel c = Channel.fresh (s.channelCfg c).rnom) ∧
        (∀ l, r = .lever l → (t.lever l).position = .unknown ∧ (t.lever l).stroke = none ∧
          (t.lever l).contactsRead = false) ∧
        (r = .collars → ∀ l, look t.collars l = ⟨(s.leverCfg l).lock.isSome, none⟩) ∧
        (∀ x k, r = .timer x → look s.cfg.timers x = some k →
          look t.timers x = some (s.clock + 48000 * k.duration)) ∧
        (∀ x, r = .timer x → look s.cfg.timers x = none → look t.timers x = none) ∧
        (∀ e, r = .offer e → (t.bell e).offer = none) ∧
        (r = .replay → t.replay = Replay.empty) ∧
        (∀ e c, r = c.viewRecord e → s.endCfg e = some c → (t.view e).state = .closed ∧
          (t.release e).state = .none) ∧
        (∀ e, r = .release e → t.release e = Release.none) ∧
        (∀ e, r = .key e → (t.bell e).phase = .holdOff none ∧ (t.bell e).code = none) ∧
        (∀ e, r = .outstanding e → (t.bell e).outstanding = none) ∧
        (r = .queue → t.line.sending = none ∧ t.line.attempt = 0 ∧
          (∀ q ∈ t.line.queue, q.body.coalesces = true ∨ ∃ m, q.body = .request m) ∧
          (s.records.notices.length < 24 →
            ⟨.lineBusy, 0, s.records.time, s.records.timeValid⟩ ∈ t.records.notices)) ∧
        (∀ a, r = .stationRec a → t.stationRec a = StationRec.created) ∧
        (∀ e, r = .freshness e → (t.lineEnd e).fresh = false ∧ (t.lineEnd e).stateAt = none) ∧
        (∀ i, r = .sub i → t.sub i = SubEntry.fresh) ∧
        (∀ e, r = .demand e →
          ((s.release e).state ≠ .consumed → t.demand e = none) ∧
          ((s.release e).state = .consumed → (s.view e).clearUnder (s.release e).acc = true →
            ∃ d, t.demand e = some d ∧ d.state = .passing ∧ d.relNo = (s.release e).acc ∧
              d.retryAt = none)) ∧
        (r = .switch → t.switch.state = .inn ∧ t.switch.refusal = none ∧
          t.switch.mark = (s.hasPairs && s.switch.keyIn.closed) ∧
          (s.hasPairs = true → t.switch.cause = some (s.switch.cause.getD .fault))))

/-- RESUME and RESUME_PASS_VISIT: RESUME starts a pass that is answered IN PROGRESS; the visit of the last
record of a pass that met no poison returns the station to its return state with the report empty: to LOADED, or
to PROVING with every owned record CLOSED, its number, next request number and obstruction kept (R93), and an
OPEN offered (R151); that the release of such an end is then NONE, where R151 and the table after R123 keep it,
is the model's choice (R98; log entry 55). A pass that met a poisoned record, the last one too, refuses the
RESUME by naming it. -/
def Obligations.ResumePass : Prop :=
  ∀ s : State, s.live = true → s.Calm →
    (s.service = .restrictive → s.panel.command = none →
      exec .resume s = .next { s with
        integrity := { s.integrity with resume := .running, passAt := 0, passPoisoned := none }
        panel := { s.panel with command := some .resume, response := some ⟨.inProgress, []⟩ } }) ∧
    (s.panel.command = some .resume → s.integrity.passAt + 1 = s.scrubOrder.length →
      s.integrity.passPoisoned = none → s.returnState = some .loaded →
      (∀ r, s.scrubOrder[s.integrity.passAt]? = some r → s.isPoisoned r = false) →
      ∃ t : State, exec (.resumePassVisit []) s = .next t ∧ t.service = .loaded ∧
        t.integrity.report = none ∧ t.integrity.resume = .done ∧ t.panel.command = none ∧
        t.integrity.scrubAt = 0 ∧ ∀ n, (t.output n).failedMark = false) ∧
    (s.panel.command = some .resume → s.integrity.passAt + 1 = s.scrubOrder.length →
      s.integrity.passPoisoned = none → s.integrity.poisoned = [] →
      s.returnState = some .proving → s.line.hasRoom = true →
      ∃ t : State, exec (.resumePassVisit []) s = .next t ∧
        (t.service = .proving ∨ t.service = .inService) ∧ t.integrity.report = none ∧
        t.integrity.resume = .done ∧ t.panel.command = none ∧ t.integrity.scrubAt = 0 ∧
        (⟨0, s.openTelegram, none⟩ : TxEntry) ∈ t.line.queue ∧
        (∀ n, (t.output n).failedMark = false) ∧
        ∀ e c, s.endCfg e = some c → c.owner = true → (t.view e).state = .closed ∧
          (t.view e).dir = .none ∧ (t.view e).acc = (s.view e).acc ∧
          (t.view e).nextReq = (s.view e).nextReq ∧
          (t.view e).obstruction = (s.view e).obstruction ∧ (t.release e).state = .none) ∧
    (∀ p, s.panel.command = some .resume → s.scrubOrder.length ≤ s.integrity.passAt + 1 →
      s.integrity.passPoisoned = some p ∨ s.integrity.passPoisoned = none ∧
        s.scrubOrder[s.integrity.passAt]? = some p ∧ s.isPoisoned p = true →
      ∃ t : State, exec (.resumePassVisit []) s = .next t ∧ t.integrity.resume = .refused p ∧
        t.integrity.report = s.integrity.report ∧ t.panel.command = none)

/-- TIME_TICK and SET_TIME: the time of day advances by 1 and wraps after 863 999, the time-valid
flag as it was; a taken SET_TIME sets both and is answered OK; nothing but own time moves with them.
Own time is the model's: log entry 2. That the tick is taken during the memory test is its choice: log entry 71. -/
def Obligations.TimeOfDay : Prop :=
  ∀ (x : Nat) (s : State),
    (s.power ≠ .held → s.records.time < 864000 →
      ∃ t : State, exec .timeTick s = .next t ∧ t.records.time < 864000 ∧
        (s.records.time < 863999 → t.records.time = s.records.time + 1) ∧
        (s.records.time = 863999 → t.records.time = 0) ∧
        t.clock = max s.clock (s.tickAt + 4800) ∧
        t = { s with clock := t.clock, tickAt := t.clock
                     records := { s.records with time := t.records.time } }) ∧
    (s.power = .running → s.service ≠ .lockdown → s.panel.command = none →
      (x < 864000 → exec (.setTime x) s = .next { s with
        tickAt := s.clock, records := { s.records with time := x, timeValid := true }
        panel := { s.panel with response := some ⟨.ok, []⟩ } }) ∧
      (864000 ≤ x → exec (.setTime x) s = .next { s with
        panel := { s.panel with response := some ⟨.badArgument, []⟩ } }))

/-- The taking of an entry (R155): numbers, the counts at 128 and at 256, the oldest entry lost, and the
notices; and of a notice (R157): joined, or lost with the overflow flag. -/
def Obligations.RegisterAndNoticesTaken : Prop :=
  ∀ (r : RecordUnit) (i : EventInfo) (k : NoticeKind) (n : Nat),
    let x : Entry := ⟨r.nextNumber, r.time, r.timeValid, i⟩
    (r.register.length < 256 → (r.take i).register = r.register ++ [x] ∧
      (r.take i).overwrite = r.overwrite) ∧
    (256 ≤ r.register.length → (r.take i).register = r.register.tail ++ [x] ∧
      (r.take i).overwrite = true) ∧
    (r.take i).nextNumber = (r.nextNumber + 1) % 65536 ∧
    (r.notices.length < 32 → (r.notify k n).notices = r.notices ++ [⟨k, n, r.time, r.timeValid⟩] ∧
      (r.notify k n).overflow = r.overflow) ∧
    (32 ≤ r.notices.length → (r.notify k n).notices = r.notices ∧ (r.notify k n).overflow = true) ∧
    (r.notices.length < 32 → (r.take i).notices = r.notices ++
      if r.register.length + 1 = 128 then [⟨.registerHalf, 0, r.time, r.timeValid⟩]
      else if 256 ≤ r.register.length ∧ r.overwrite = false then
        [⟨.registerOverwrite, 0, r.time, r.timeValid⟩]
      else [])

/-- The register holds at most 256 entries and the notice queue at most 32 notices after every step
from a state in which they do (R153, R157). -/
def Obligations.RecordsBoundedKept : Prop :=
  ∀ s t : State, s.RecordsBounded → step s = .next t → t.RecordsBounded

/-! ## The panel port -/

/-- The order in which frames are judged (R161, R162): an aborted transaction changes nothing and has no
response; a frame that spells no command is answered BAD ARGUMENT while the part runs; during the memory
test every frame is answered BUSY, one that spells no command too (the model's reading of section 10.6: log
entry 25); while LOAD END or RESUME runs every command frame but READ STATION's is answered BUSY and changes
nothing. LOAD_BEGIN, LOAD_RECORD and LOAD_END, taken: an empty staging area in LOADING; a record placed at
its kind and index, any earlier one there replaced; the checks begun and answered IN PROGRESS. -/
def Obligations.LoadingStages : Prop :=
  (∀ s : State,
    let busy : State := { s with panel := { s.panel with response := some ⟨.busy, []⟩ } }
    (∀ bs, exec (.transactionAbort bs) s = .next { s with
      panel := { s.panel with response := none } }) ∧
    (∀ f, readCommand f = none →
      (s.power = .running → exec (.badCommandFrame f) s = .next { s with
        panel := { s.panel with response := some ⟨.badArgument, []⟩ } }) ∧
      (s.power = .testing → exec (.badCommandFrame f) s = .next busy)) ∧
    (∀ i : Instr, (commandFrame i).isSome = true → i.wellFormed = true →
      (s.power = .testing → exec i s = .next busy) ∧
      (s.power = .running → i ≠ .readStation → s.panel.command ≠ none → exec i s = .next busy))) ∧
  ∀ s : State, s.power = .running → s.panel.command = none →
    (s.service = .unloaded ∨ s.service = .loading →
      exec .loadBegin s = .next { s with
        service := .loading
        panel := { s.panel with
          staging := some [], load := .none, response := some ⟨.ok, []⟩ } }) ∧
    (∀ (k n : Nat) (r : StaticId) (ct : List Byte), s.service = .loading →
      contentFits k ct = true → StaticId.of k n = some r →
      ∃ t : State, exec (.loadRecord k n ct) s = .next t ∧
        t.panel.response = some ⟨.ok, []⟩ ∧
        (∀ rs, t.panel.staging = some rs → (rs.find? fun q => q.item == r) = some ⟨r, ct⟩ ∧
          ∀ r', r' ≠ r → (rs.find? fun q => q.item == r') =
            ((s.panel.staging.getD []).find? fun q => q.item == r')) ∧
        t.panel.staging ≠ none ∧ t = { s with panel := t.panel }) ∧
    (∀ d, s.service = .loading → exec (.loadEnd d) s = .next { s with
      panel := { s.panel with
        command := some (.loadEnd d), load := .running, response := some ⟨.inProgress, []⟩ } })

/-- LOAD_END_CHECKS_COMPLETE: where the checks pass, the configuration is the staged one, the channels,
levers, collars, timers, section records, releases and demands are new, the queue empty, the switch IN and
the station LOADED; where they fail, the outcome names the check and nothing else changes but
the command in progress. -/
def Obligations.LoadEndDecides : Prop :=
  ∀ (d : Word) (s : State), s.power = .running → s.service = .loading →
    s.panel.command = some (.loadEnd d) →
    (loadCheck (s.panel.staging.getD []) d = none →
      ∃ t : State, exec .loadEndChecksComplete s = .next t ∧ t.service = .loaded ∧
        t.hasConfig = true ∧ t.cfg = stagedConfig (s.panel.staging.getD []) ∧
        t.panel.staging = none ∧ t.panel.load = .passed ∧ t.panel.command = none ∧
        t.integrity.poisoned = [] ∧ t.integrity.report = none ∧ t.records = s.records ∧
        (∀ c, t.channel c = Channel.fresh (t.channelCfg c).rnom) ∧
        (∀ l, t.lever l = Lever.fresh ∧ look t.collars l = ⟨false, none⟩) ∧
        (∀ x, look t.timers x = none) ∧
        (∀ e, t.view e = View.fresh ∧ t.release e = Release.none ∧ t.demand e = none) ∧
        t.line.queue = [] ∧ t.switch.state = .inn) ∧
    (∀ k r, loadCheck (s.panel.staging.getD []) d = some (k, r) →
      exec .loadEndChecksComplete s = .next { s with
        panel := { s.panel with command := none, load := .failed k r } })

/-- ENTER_SERVICE from LOADED and RESTART from LOADED, PROVING and IN SERVICE, the static records that an
OPEN names sound: the station is PROVING, or IN SERVICE where the proving condition holds at once, the OPEN
stands at the head of the queue where the queue was empty or is made so, and the answer is OK. -/
def Obligations.EntersProving : Prop :=
  ∀ s : State, s.live = true → s.panel.command = none → s.Calm → s.reportSound = true →
    (s.service = .loaded → s.line.queue = [] →
      ∃ t : State, exec .enterService s = .next t ∧ t.panel.response = some ⟨.ok, []⟩ ∧
        t.service = (if s.provingHolds then .inService else .proving) ∧
        t.line.queue.head? = some ⟨0, s.openTelegram, none⟩ ∧ t.channels = s.channels ∧
        (∀ e, ∃ o, (t.bell e).phase = .holdOff o)) ∧
    (s.service = .loaded ∨ s.service = .proving ∨ s.service = .inService →
      ∃ t : State, exec .restart s = .next t ∧ t.panel.response = some ⟨.ok, []⟩ ∧
        (t.service = .proving ∨ t.service = .inService) ∧
        t.line.queue.head? = some ⟨0, s.openTelegram, none⟩ ∧
        (∀ c, t.channel c = Channel.fresh (s.channelCfg c).rnom) ∧
        (∀ l, (t.lever l).position = .unknown) ∧
        (∀ e, (t.view e).state = .closed ∧ t.release e = Release.none) ∧ t.cfg = s.cfg)

/-- SET_COLLARS, RESTORE_CHANNEL, ARRIVAL_RELEASE and CLEAR_SWITCH_CAUSE in IN SERVICE, taken; a SET_COLLARS
whose mask names a lever without a lock is answered BAD ARGUMENT and changes nothing. `u` is the state that the
event's close, `State.react`, then answers (the close is the model's: log entry 7). Own time is the model's:
log entry 2. -/
def Obligations.SignalmanCommands : Prop :=
  ∀ s : State, s.live = true → s.service = .inService → s.panel.command = none → s.Calm →
    (∀ mask value, s.maskLocked mask = true →
      ∃ t : State, exec (.setCollars mask value) s = .next t ∧
        t.panel.response = some ⟨.ok, []⟩ ∧
        (∀ l : LeverNo, mask.getLsbD l.val = false → look t.collars l = look s.collars l) ∧
        (∀ l : LeverNo, mask.getLsbD l.val = true →
          ((s.lever l).position = .mid →
            (look t.collars l).effective = (look s.collars l).effective ∧
            (look t.collars l).staged = some (value.getLsbD l.val)) ∧
          ((s.lever l).position ≠ .mid →
            look t.collars l = ⟨value.getLsbD l.val, none⟩))) ∧
    (∀ mask value, s.maskLocked mask = false →
      exec (.setCollars mask value) s = .next { s with
        panel := { s.panel with response := some ⟨.badArgument, []⟩ } }) ∧
    (∀ c : ChanNo, (s.channel c).decision = .failed → s.badStatic (.channel c) = false →
      ((s.channel c).f ≤ highThreshold (s.channelCfg c) (s.channel c).r →
        ∃ t : State, exec (.restoreChannel (c.val + 1)) s = .next t ∧
          t.panel.response = some ⟨.ok, []⟩ ∧
          t.channel c = { s.channel c with
            decision := .occupied, drop := 0, pick := 0, high := 0, faultRun := 0, cause := none }) ∧
      (highThreshold (s.channelCfg c) (s.channel c).r < (s.channel c).f →
        exec (.restoreChannel (c.val + 1)) s = .next { s with
          panel := { s.panel with response := some ⟨.refused, [4]⟩ } })) ∧
    (∀ (e : EndNo) (c : EndCfg) (p : Proof), s.endCfg e = some c → (s.view e).proof = some p →
      p.complete = false → p.waitUntil = none →
      ∃ u t : State, exec (.arrivalRelease (e.val + 1)) s = .next t ∧ t = (u.react s).answerOk ∧
        t.panel.response = some ⟨.ok, []⟩ ∧
        u.view e = { s.view e with proof := some { p with waitUntil := some (s.clock + 2880000) } } ∧
        u.records = s.records.take { EventInfo.ofSection .arrivalRelease c.section_ with
          acc := some (s.view e).acc } ∧
        (∃ q, (t.view e).proof = some q ∧ q.p = p.p ∧ q.complete = false ∧
          q.waitUntil = some (s.clock + 2880000)) ∧
        t.rest = { s.rest with panel := t.panel }) ∧
    exec .clearSwitchCause s = .next { s with
      switch := { s.switch with cause := none }
      panel := { s.panel with response := some ⟨.ok, []⟩ } }

/-- REPAIR_RECORD of a poisoned static record in RESTRICTIVE, of any content with the length of its kind:
answered OK, written and its poison cleared where its digest entry is sound and equal to the digest of the
content sent, which is the only judgement of it (R174; where the content spells no record of its kind it is held
as it was carried: log entry 20); refused DIGEST, with nothing changed, where it is not (that a poisoned digest
entry refuses with this reason is the model's choice: log entry 20). For a lever, the fields written are those
that the content spells, and no other lever's. A channel's dynamic part is initialised with the repair of its
static part and no other channel's (R18; where the content spells no record, Rnom is a free value: log entry
20), and a subscription entry is FAILED with no age (R149). REPAIR_RECORD of a poisoned digest entry: its digest
is taken and its poison cleared where it equals the digest of the record it covers, not itself poisoned, as that
stands; refused DIGEST, with nothing changed, where not (R141). -/
def Obligations.RepairNeedsDigest : Prop :=
  (∀ (k n : Nat) (r : StaticId) (ct : List Byte) (s : State), s.live = true → s.Calm →
    s.service = .restrictive → s.panel.command = none → StaticId.of k n = some r →
    r ∈ s.cfg.statics → contentFits k ct = true → s.badStatic r = true →
    (s.isPoisoned (.digest r) = false → s.digestOf r = some (recordDigest r ct) →
      ∃ t : State, exec (.repairRecord k n ct) s = .next t ∧
        t.panel.response = some ⟨.ok, []⟩ ∧ t.badStatic r = false ∧
        (∀ v, readStatic r ct = some v → t.cfg = s.cfg.put r v) ∧
        (readStatic r ct = none → t.contentOf r = some ct) ∧
        (∀ c, r = .channel c →
          t.channels = upd s.channels c fun _ => Channel.fresh (t.channelCfg c).rnom) ∧
        (∀ i, r = .sub i → t.sub i = ⟨.failed, none⟩)) ∧
    (s.isPoisoned (.digest r) = true ∨ s.digestOf r ≠ some (recordDigest r ct) →
      exec (.repairRecord k n ct) s = .next { s with
        panel := { s.panel with response := some ⟨.refused, [5]⟩ } })) ∧
  (∀ (n : Nat) (r : StaticId) (w : Word) (ct : List Byte) (s : State), s.live = true → s.Calm →
    s.service = .restrictive → s.panel.command = none →
    StaticId.of (n / 256) (n % 256) = some r → r ∈ s.cfg.statics → s.contentOf r = some ct →
    s.isPoisoned (.digest r) = true →
    (s.badStatic r = false → w = recordDigest r ct → (s.digestOf r).isSome = true →
      ∃ t : State, exec (.repairRecord 2 n (wordBytes w)) s = .next t ∧
        t.panel.response = some ⟨.ok, []⟩ ∧ t.isPoisoned (.digest r) = false ∧
        t.digestOf r = some w ∧ t.contentOf r = some ct ∧
        (∀ x, x ≠ r → t.digestOf x = s.digestOf x) ∧ t.cfg = s.cfg) ∧
    (s.badStatic r = true ∨ w ≠ recordDigest r ct →
      exec (.repairRecord 2 n (wordBytes w)) s = .next { s with
        panel := { s.panel with response := some ⟨.refused, [5]⟩ } })) ∧
  ∀ (l : LeverNo) (ct : List Byte) (v : LeverCfg) (s : State), s.live = true → s.Calm →
    s.service = .restrictive → s.panel.command = none → readLeverCfg ct = some v →
    s.badStatic (.lever l) = true →
    (s.isPoisoned (.digest (.lever l)) = false →
      s.digestOf (.lever l) = some (recordDigest (.lever l) ct) →
      ∃ t : State, exec (.repairRecord 5 (l.val + 1) ct) s = .next t ∧
        t.panel.response = some ⟨.ok, []⟩ ∧ t.badStatic (.lever l) = false ∧
        t.leverCfg l = v ∧ ∀ m, m ≠ l → t.leverCfg m = s.leverCfg m) ∧
    (s.isPoisoned (.digest (.lever l)) = true ∨
        s.digestOf (.lever l) ≠ some (recordDigest (.lever l) ct) →
      exec (.repairRecord 5 (l.val + 1) ct) s = .next { s with
        panel := { s.panel with response := some ⟨.refused, [5]⟩ } })

/-- READ_STATION, READ_SECTION, READ_TRACK, READ_FRAME and READ_FAULT are answered with their records,
READ_TRACK clearing the sticky flags and READ_FAULT the tallies; NOTICE_READ and REGISTER_READ remove
the oldest item and return it. (The bytes are those of the model's functions; its choices in them are log entries 22,
41 and 74.) -/
def Obligations.ReadsAnswered : Prop :=
  ∀ s : State, s.power = .running → s.panel.command = none → s.Calm →
    let answered (bytes : List Byte) : PanelUnit := { s.panel with response := some ⟨.ok, bytes⟩ }
    exec .readStation s = .next { s with panel := answered s.stationView } ∧
    exec .readFault s = .next { s with
      panel := answered s.faultBytes
      integrity := { s.integrity with tallies := Vector.replicate 7 0 } } ∧
    exec .noticeRead s = .next { s with
      panel := answered s.records.noticeBytes
      records := { s.records with
        notices := s.records.notices.tail
        overflow := s.records.overflow && !s.records.notices.tail.isEmpty } } ∧
    exec .registerRead s = .next { s with
      panel := answered s.records.registerBytes
      records := { s.records with register := s.records.register.tail, overwrite := false } } ∧
    (s.hasConfig = true → s.service ≠ .unloaded → s.service ≠ .loading →
      exec .readFrame s = .next { s with panel := answered s.frameBytes } ∧
      (∀ c : ChanNo, exec (.readTrack (c.val + 1)) s = .next { s with
        panel := answered (s.trackBytes c)
        channels := upd s.channels c fun ch =>
          { ch with bob := false, lowFeed := false, highFeed := false } }) ∧
      (∀ (e : EndNo) (c : EndCfg), s.endCfg e = some c →
        exec (.readSection (e.val + 1)) s = .next { s with
          panel := answered (s.sectionBytes e c) }))

/-- The sizes of the read responses (section 11.3), the configuration's lists within their places. -/
def Obligations.ReadSizes : Prop :=
  ∀ s : State,
    (∀ c, (s.trackBytes c).length = 21) ∧ s.frameBytes.length = 201 ∧ s.faultBytes.length = 26 ∧
    ((∀ p c, s.pairCfg p = some c → c.levers.length ≤ 4) → s.stationView.length = 186) ∧
    (∀ e c, c.clearance.length ≤ 4 → c.proving.length ≤ 3 →
      (∀ a, (s.bell e).code = some a → a.groups.length ≤ 5) → (s.sectionBytes e c).length = 66) ∧
    (s.records.register ≠ [] → (∀ x ∈ s.records.register, ∀ g, x.info.groups = some g →
      g.length ≤ 5) → s.records.registerBytes.length = 22) ∧
    (s.records.notices ≠ [] → s.records.noticeBytes.length = 8)

/-! ## Frames and telegrams -/

/-- The frame of every well-formed panel command reads as that command: no bit of an operand is
dropped, and no frame is answered BAD ARGUMENT for its length or CRC. -/
def Obligations.FrameRoundTrip : Prop :=
  ∀ (i : Instr) (f : List Byte), i.wellFormed = true → commandFrame i = some f →
    readCommand f = some i

/-- The characters of every telegram that the model takes, `Telegram.fits`, read as that telegram: every one
within the encodings of section 11.2 and, by the model's choice (log entry 14), those with a section id outside
1 to 63 or with a class in a REQUEST other than ACCEPT. -/
def Obligations.TelegramRoundTrip : Prop :=
  ∀ (h : Header) (t : Telegram), h.wellFormed = true → t.fits = true →
    parseTelegram (t.chars h) = some (h, t)
end

