-- ==== Sys2Proof/Laws/Formats.lean ====
section
/-! SUPPORT. Laws of the byte layouts: numbers, words and lever masks read back as they were written. -/

namespace Sys2Proof.Machine

open Sys2Proof

theorem byte_toNat (n : Nat) : (byte n).toNat = n % 256 := by simp [byte]
theorem byte_toNat_lt {n : Nat} (h : n < 256) : (byte n).toNat = n := by
  rw [byte_toNat, Nat.mod_eq_of_lt h]

/-- A number of two bytes reads back. -/
theorem num2_two {n : Nat} (h : n < 65536) : num2 (byte (n / 256)) (byte n) = n := by
  simp only [num2, byte_toNat]; omega

/-- A number of three bytes reads back. -/
theorem num3_three {n : Nat} (h : n < 16777216) :
    num3 (byte (n / 65536)) (byte (n / 256)) (byte n) = n := by
  simp only [num3, byte_toNat]; omega

/-- A word reads back from its two bytes. -/
theorem wordOf_bytes (w : Word) : wordOf (byte (w.toNat / 256)) (byte w.toNat) = w := by
  unfold wordOf
  rw [num2_two w.isLt, BitVec.ofNat_toNat, BitVec.setWidth_eq]

theorem wordBytes_length (w : Word) : (wordBytes w).length = 2 := rfl
theorem maskBytes_length (m : BitVec 64) : (maskBytes m).length = 8 := rfl

/-- A bit of a lever mask of bytes is a bit of the byte that carries it. -/
theorem maskOf_getLsbD (bs : List Byte) (i : Nat) :
    (maskOf bs).getLsbD i = (decide (i < 64) && (bs[i / 8]?.getD 0).getLsbD (i % 8)) := by
  unfold maskOf
  induction bs generalizing i with
  | nil => simp
  | cons b bs ih =>
    simp only [List.foldr_cons, BitVec.getLsbD_or, BitVec.getLsbD_shiftLeft,
      BitVec.getLsbD_setWidth]
    by_cases h : i < 8
    · have h1 : i / 8 = 0 := by omega
      have h2 : i % 8 = i := by omega
      simp [h, h1, h2]
    · have h1 : i / 8 = (i - 8) / 8 + 1 := by omega
      have h2 : i % 8 = (i - 8) % 8 := by omega
      have h3 : i - 8 < 64 ∨ ¬i < 64 := by omega
      rw [ih, h1, h2, BitVec.getLsbD_of_ge b i (by omega)]
      rcases h3 with h3 | h3 <;> simp [h, h3]

/-- A lever mask reads back from its eight bytes. -/
theorem maskOf_bytes (m : BitVec 64) : maskOf (maskBytes m) = m := by
  apply BitVec.eq_of_getLsbD_eq
  intro i hi
  have h1 : i / 8 < 8 := by omega
  have h2 : 8 * (i / 8) + i % 8 = i := by omega
  have h3 : i % 8 < 8 := by omega
  rw [maskOf_getLsbD]
  simp [maskBytes, hi, h1, h2, h3]

end Sys2Proof.Machine
end

