-- ==== Sys2Proof/Laws/State.lean ====
section
/-! SUPPORT. One lemma for each field under each named update of the state, true by definition, and
the laws of the indexed collections that the records stand in. -/

namespace Sys2Proof

variable {α : Type} {n : Nat}

@[simp] theorem look_upd_same (v : Vector α n) (i : Fin n) (f : α → α) :
    look (upd v i f) i = f (look v i) := by simp [look, upd]

theorem look_upd_ne (v : Vector α n) {i j : Fin n} (f : α → α) (h : i ≠ j) :
    look (upd v i f) j = look v j := by
  have h' : i.val ≠ j.val := fun e => h (Fin.ext e)
  simp [look, upd, h']

theorem look_upd (v : Vector α n) (i j : Fin n) (f : α → α) :
    look (upd v i f) j = if i = j then f (look v j) else look v j := by
  by_cases h : i = j
  · subst h; simp
  · simp [look_upd_ne v f h, h]

@[simp] theorem look_build (f : Fin n → α) (i : Fin n) : look (build n f) i = f i := by
  simp [look, build]

@[simp] theorem look_map {β : Type} (v : Vector α n) (f : α → β) (i : Fin n) :
    look (v.map f) i = f (look v i) := by simp [look]

@[simp] theorem look_replicate (a : α) (i : Fin n) : look (Vector.replicate n a) i = a := by
  simp [look]

/-- Two collections with equal elements are equal. -/
theorem look_ext {v w : Vector α n} (h : ∀ i, look v i = look w i) : v = w := by
  apply Vector.ext
  intro i hi
  exact h ⟨i, hi⟩

namespace Machine


/-! ### reach -/

@[simp] theorem reach_pending (s : State) (t : Nat) :
    (s.reach t).pending = s.pending := rfl
@[simp] theorem reach_clock (s : State) (t : Nat) :
    (s.reach t).clock = max s.clock t := rfl
@[simp] theorem reach_power (s : State) (t : Nat) :
    (s.reach t).power = s.power := rfl
@[simp] theorem reach_service (s : State) (t : Nat) :
    (s.reach t).service = s.service := rfl
@[simp] theorem reach_hasConfig (s : State) (t : Nat) :
    (s.reach t).hasConfig = s.hasConfig := rfl
@[simp] theorem reach_cfg (s : State) (t : Nat) :
    (s.reach t).cfg = s.cfg := rfl
@[simp] theorem reach_channels (s : State) (t : Nat) :
    (s.reach t).channels = s.channels := rfl
@[simp] theorem reach_sampledAt (s : State) (t : Nat) :
    (s.reach t).sampledAt = s.sampledAt := rfl
@[simp] theorem reach_levers (s : State) (t : Nat) :
    (s.reach t).levers = s.levers := rfl
@[simp] theorem reach_collars (s : State) (t : Nat) :
    (s.reach t).collars = s.collars := rfl
@[simp] theorem reach_timers (s : State) (t : Nat) :
    (s.reach t).timers = s.timers := rfl
@[simp] theorem reach_outputs (s : State) (t : Nat) :
    (s.reach t).outputs = s.outputs := rfl
@[simp] theorem reach_lanes (s : State) (t : Nat) :
    (s.reach t).lanes = s.lanes := rfl
@[simp] theorem reach_judged (s : State) (t : Nat) :
    (s.reach t).judged = s.judged := rfl
@[simp] theorem reach_laneErrA (s : State) (t : Nat) :
    (s.reach t).laneErrA = s.laneErrA := rfl
@[simp] theorem reach_laneErrB (s : State) (t : Nat) :
    (s.reach t).laneErrB = s.laneErrB := rfl
@[simp] theorem reach_bells (s : State) (t : Nat) :
    (s.reach t).bells = s.bells := rfl
@[simp] theorem reach_replay (s : State) (t : Nat) :
    (s.reach t).replay = s.replay := rfl
@[simp] theorem reach_line (s : State) (t : Nat) :
    (s.reach t).line = s.line := rfl
@[simp] theorem reach_ends (s : State) (t : Nat) :
    (s.reach t).ends = s.ends := rfl
@[simp] theorem reach_switch (s : State) (t : Nat) :
    (s.reach t).switch = s.switch := rfl
@[simp] theorem reach_integrity (s : State) (t : Nat) :
    (s.reach t).integrity = s.integrity := rfl
@[simp] theorem reach_records (s : State) (t : Nat) :
    (s.reach t).records = s.records := rfl
@[simp] theorem reach_panel (s : State) (t : Nat) :
    (s.reach t).panel = s.panel := rfl
@[simp] theorem reach_latches (s : State) (t : Nat) :
    (s.reach t).latches = s.latches := rfl
@[simp] theorem reach_scanned (s : State) (t : Nat) :
    (s.reach t).scanned = s.scanned := rfl
@[simp] theorem reach_scanAt (s : State) (t : Nat) :
    (s.reach t).scanAt = s.scanAt := rfl
@[simp] theorem reach_tickAt (s : State) (t : Nat) :
    (s.reach t).tickAt = s.tickAt := rfl

/-! ### updChannel -/

@[simp] theorem updChannel_pending (s : State) (c : ChanNo) (f : Channel → Channel) :
    (s.updChannel c f).pending = s.pending := rfl
@[simp] theorem updChannel_clock (s : State) (c : ChanNo) (f : Channel → Channel) :
    (s.updChannel c f).clock = s.clock := rfl
@[simp] theorem updChannel_power (s : State) (c : ChanNo) (f : Channel → Channel) :
    (s.updChannel c f).power = s.power := rfl
@[simp] theorem updChannel_service (s : State) (c : ChanNo) (f : Channel → Channel) :
    (s.updChannel c f).service = s.service := rfl
@[simp] theorem updChannel_hasConfig (s : State) (c : ChanNo) (f : Channel → Channel) :
    (s.updChannel c f).hasConfig = s.hasConfig := rfl
@[simp] theorem updChannel_cfg (s : State) (c : ChanNo) (f : Channel → Channel) :
    (s.updChannel c f).cfg = s.cfg := rfl
@[simp] theorem updChannel_channels (s : State) (c : ChanNo) (f : Channel → Channel) :
    (s.updChannel c f).channels = upd s.channels c f := rfl
@[simp] theorem updChannel_sampledAt (s : State) (c : ChanNo) (f : Channel → Channel) :
    (s.updChannel c f).sampledAt = s.sampledAt := rfl
@[simp] theorem updChannel_levers (s : State) (c : ChanNo) (f : Channel → Channel) :
    (s.updChannel c f).levers = s.levers := rfl
@[simp] theorem updChannel_collars (s : State) (c : ChanNo) (f : Channel → Channel) :
    (s.updChannel c f).collars = s.collars := rfl
@[simp] theorem updChannel_timers (s : State) (c : ChanNo) (f : Channel → Channel) :
    (s.updChannel c f).timers = s.timers := rfl
@[simp] theorem updChannel_outputs (s : State) (c : ChanNo) (f : Channel → Channel) :
    (s.updChannel c f).outputs = s.outputs := rfl
@[simp] theorem updChannel_lanes (s : State) (c : ChanNo) (f : Channel → Channel) :
    (s.updChannel c f).lanes = s.lanes := rfl
@[simp] theorem updChannel_judged (s : State) (c : ChanNo) (f : Channel → Channel) :
    (s.updChannel c f).judged = s.judged := rfl
@[simp] theorem updChannel_laneErrA (s : State) (c : ChanNo) (f : Channel → Channel) :
    (s.updChannel c f).laneErrA = s.laneErrA := rfl
@[simp] theorem updChannel_laneErrB (s : State) (c : ChanNo) (f : Channel → Channel) :
    (s.updChannel c f).laneErrB = s.laneErrB := rfl
@[simp] theorem updChannel_bells (s : State) (c : ChanNo) (f : Channel → Channel) :
    (s.updChannel c f).bells = s.bells := rfl
@[simp] theorem updChannel_replay (s : State) (c : ChanNo) (f : Channel → Channel) :
    (s.updChannel c f).replay = s.replay := rfl
@[simp] theorem updChannel_line (s : State) (c : ChanNo) (f : Channel → Channel) :
    (s.updChannel c f).line = s.line := rfl
@[simp] theorem updChannel_ends (s : State) (c : ChanNo) (f : Channel → Channel) :
    (s.updChannel c f).ends = s.ends := rfl
@[simp] theorem updChannel_switch (s : State) (c : ChanNo) (f : Channel → Channel) :
    (s.updChannel c f).switch = s.switch := rfl
@[simp] theorem updChannel_integrity (s : State) (c : ChanNo) (f : Channel → Channel) :
    (s.updChannel c f).integrity = s.integrity := rfl
@[simp] theorem updChannel_records (s : State) (c : ChanNo) (f : Channel → Channel) :
    (s.updChannel c f).records = s.records := rfl
@[simp] theorem updChannel_panel (s : State) (c : ChanNo) (f : Channel → Channel) :
    (s.updChannel c f).panel = s.panel := rfl
@[simp] theorem updChannel_latches (s : State) (c : ChanNo) (f : Channel → Channel) :
    (s.updChannel c f).latches = s.latches := rfl
@[simp] theorem updChannel_scanned (s : State) (c : ChanNo) (f : Channel → Channel) :
    (s.updChannel c f).scanned = s.scanned := rfl
@[simp] theorem updChannel_scanAt (s : State) (c : ChanNo) (f : Channel → Channel) :
    (s.updChannel c f).scanAt = s.scanAt := rfl
@[simp] theorem updChannel_tickAt (s : State) (c : ChanNo) (f : Channel → Channel) :
    (s.updChannel c f).tickAt = s.tickAt := rfl

/-! ### updLever -/

@[simp] theorem updLever_pending (s : State) (l : LeverNo) (f : Lever → Lever) :
    (s.updLever l f).pending = s.pending := rfl
@[simp] theorem updLever_clock (s : State) (l : LeverNo) (f : Lever → Lever) :
    (s.updLever l f).clock = s.clock := rfl
@[simp] theorem updLever_power (s : State) (l : LeverNo) (f : Lever → Lever) :
    (s.updLever l f).power = s.power := rfl
@[simp] theorem updLever_service (s : State) (l : LeverNo) (f : Lever → Lever) :
    (s.updLever l f).service = s.service := rfl
@[simp] theorem updLever_hasConfig (s : State) (l : LeverNo) (f : Lever → Lever) :
    (s.updLever l f).hasConfig = s.hasConfig := rfl
@[simp] theorem updLever_cfg (s : State) (l : LeverNo) (f : Lever → Lever) :
    (s.updLever l f).cfg = s.cfg := rfl
@[simp] theorem updLever_channels (s : State) (l : LeverNo) (f : Lever → Lever) :
    (s.updLever l f).channels = s.channels := rfl
@[simp] theorem updLever_sampledAt (s : State) (l : LeverNo) (f : Lever → Lever) :
    (s.updLever l f).sampledAt = s.sampledAt := rfl
@[simp] theorem updLever_levers (s : State) (l : LeverNo) (f : Lever → Lever) :
    (s.updLever l f).levers = upd s.levers l f := rfl
@[simp] theorem updLever_collars (s : State) (l : LeverNo) (f : Lever → Lever) :
    (s.updLever l f).collars = s.collars := rfl
@[simp] theorem updLever_timers (s : State) (l : LeverNo) (f : Lever → Lever) :
    (s.updLever l f).timers = s.timers := rfl
@[simp] theorem updLever_outputs (s : State) (l : LeverNo) (f : Lever → Lever) :
    (s.updLever l f).outputs = s.outputs := rfl
@[simp] theorem updLever_lanes (s : State) (l : LeverNo) (f : Lever → Lever) :
    (s.updLever l f).lanes = s.lanes := rfl
@[simp] theorem updLever_judged (s : State) (l : LeverNo) (f : Lever → Lever) :
    (s.updLever l f).judged = s.judged := rfl
@[simp] theorem updLever_laneErrA (s : State) (l : LeverNo) (f : Lever → Lever) :
    (s.updLever l f).laneErrA = s.laneErrA := rfl
@[simp] theorem updLever_laneErrB (s : State) (l : LeverNo) (f : Lever → Lever) :
    (s.updLever l f).laneErrB = s.laneErrB := rfl
@[simp] theorem updLever_bells (s : State) (l : LeverNo) (f : Lever → Lever) :
    (s.updLever l f).bells = s.bells := rfl
@[simp] theorem updLever_replay (s : State) (l : LeverNo) (f : Lever → Lever) :
    (s.updLever l f).replay = s.replay := rfl
@[simp] theorem updLever_line (s : State) (l : LeverNo) (f : Lever → Lever) :
    (s.updLever l f).line = s.line := rfl
@[simp] theorem updLever_ends (s : State) (l : LeverNo) (f : Lever → Lever) :
    (s.updLever l f).ends = s.ends := rfl
@[simp] theorem updLever_switch (s : State) (l : LeverNo) (f : Lever → Lever) :
    (s.updLever l f).switch = s.switch := rfl
@[simp] theorem updLever_integrity (s : State) (l : LeverNo) (f : Lever → Lever) :
    (s.updLever l f).integrity = s.integrity := rfl
@[simp] theorem updLever_records (s : State) (l : LeverNo) (f : Lever → Lever) :
    (s.updLever l f).records = s.records := rfl
@[simp] theorem updLever_panel (s : State) (l : LeverNo) (f : Lever → Lever) :
    (s.updLever l f).panel = s.panel := rfl
@[simp] theorem updLever_latches (s : State) (l : LeverNo) (f : Lever → Lever) :
    (s.updLever l f).latches = s.latches := rfl
@[simp] theorem updLever_scanned (s : State) (l : LeverNo) (f : Lever → Lever) :
    (s.updLever l f).scanned = s.scanned := rfl
@[simp] theorem updLever_scanAt (s : State) (l : LeverNo) (f : Lever → Lever) :
    (s.updLever l f).scanAt = s.scanAt := rfl
@[simp] theorem updLever_tickAt (s : State) (l : LeverNo) (f : Lever → Lever) :
    (s.updLever l f).tickAt = s.tickAt := rfl

/-! ### updCollar -/

@[simp] theorem updCollar_pending (s : State) (l : LeverNo) (f : Collar → Collar) :
    (s.updCollar l f).pending = s.pending := rfl
@[simp] theorem updCollar_clock (s : State) (l : LeverNo) (f : Collar → Collar) :
    (s.updCollar l f).clock = s.clock := rfl
@[simp] theorem updCollar_power (s : State) (l : LeverNo) (f : Collar → Collar) :
    (s.updCollar l f).power = s.power := rfl
@[simp] theorem updCollar_service (s : State) (l : LeverNo) (f : Collar → Collar) :
    (s.updCollar l f).service = s.service := rfl
@[simp] theorem updCollar_hasConfig (s : State) (l : LeverNo) (f : Collar → Collar) :
    (s.updCollar l f).hasConfig = s.hasConfig := rfl
@[simp] theorem updCollar_cfg (s : State) (l : LeverNo) (f : Collar → Collar) :
    (s.updCollar l f).cfg = s.cfg := rfl
@[simp] theorem updCollar_channels (s : State) (l : LeverNo) (f : Collar → Collar) :
    (s.updCollar l f).channels = s.channels := rfl
@[simp] theorem updCollar_sampledAt (s : State) (l : LeverNo) (f : Collar → Collar) :
    (s.updCollar l f).sampledAt = s.sampledAt := rfl
@[simp] theorem updCollar_levers (s : State) (l : LeverNo) (f : Collar → Collar) :
    (s.updCollar l f).levers = s.levers := rfl
@[simp] theorem updCollar_collars (s : State) (l : LeverNo) (f : Collar → Collar) :
    (s.updCollar l f).collars = upd s.collars l f := rfl
@[simp] theorem updCollar_timers (s : State) (l : LeverNo) (f : Collar → Collar) :
    (s.updCollar l f).timers = s.timers := rfl
@[simp] theorem updCollar_outputs (s : State) (l : LeverNo) (f : Collar → Collar) :
    (s.updCollar l f).outputs = s.outputs := rfl
@[simp] theorem updCollar_lanes (s : State) (l : LeverNo) (f : Collar → Collar) :
    (s.updCollar l f).lanes = s.lanes := rfl
@[simp] theorem updCollar_judged (s : State) (l : LeverNo) (f : Collar → Collar) :
    (s.updCollar l f).judged = s.judged := rfl
@[simp] theorem updCollar_laneErrA (s : State) (l : LeverNo) (f : Collar → Collar) :
    (s.updCollar l f).laneErrA = s.laneErrA := rfl
@[simp] theorem updCollar_laneErrB (s : State) (l : LeverNo) (f : Collar → Collar) :
    (s.updCollar l f).laneErrB = s.laneErrB := rfl
@[simp] theorem updCollar_bells (s : State) (l : LeverNo) (f : Collar → Collar) :
    (s.updCollar l f).bells = s.bells := rfl
@[simp] theorem updCollar_replay (s : State) (l : LeverNo) (f : Collar → Collar) :
    (s.updCollar l f).replay = s.replay := rfl
@[simp] theorem updCollar_line (s : State) (l : LeverNo) (f : Collar → Collar) :
    (s.updCollar l f).line = s.line := rfl
@[simp] theorem updCollar_ends (s : State) (l : LeverNo) (f : Collar → Collar) :
    (s.updCollar l f).ends = s.ends := rfl
@[simp] theorem updCollar_switch (s : State) (l : LeverNo) (f : Collar → Collar) :
    (s.updCollar l f).switch = s.switch := rfl
@[simp] theorem updCollar_integrity (s : State) (l : LeverNo) (f : Collar → Collar) :
    (s.updCollar l f).integrity = s.integrity := rfl
@[simp] theorem updCollar_records (s : State) (l : LeverNo) (f : Collar → Collar) :
    (s.updCollar l f).records = s.records := rfl
@[simp] theorem updCollar_panel (s : State) (l : LeverNo) (f : Collar → Collar) :
    (s.updCollar l f).panel = s.panel := rfl
@[simp] theorem updCollar_latches (s : State) (l : LeverNo) (f : Collar → Collar) :
    (s.updCollar l f).latches = s.latches := rfl
@[simp] theorem updCollar_scanned (s : State) (l : LeverNo) (f : Collar → Collar) :
    (s.updCollar l f).scanned = s.scanned := rfl
@[simp] theorem updCollar_scanAt (s : State) (l : LeverNo) (f : Collar → Collar) :
    (s.updCollar l f).scanAt = s.scanAt := rfl
@[simp] theorem updCollar_tickAt (s : State) (l : LeverNo) (f : Collar → Collar) :
    (s.updCollar l f).tickAt = s.tickAt := rfl

/-! ### updOutput -/

@[simp] theorem updOutput_pending (s : State) (n : OutputNo) (f : Output → Output) :
    (s.updOutput n f).pending = s.pending := rfl
@[simp] theorem updOutput_clock (s : State) (n : OutputNo) (f : Output → Output) :
    (s.updOutput n f).clock = s.clock := rfl
@[simp] theorem updOutput_power (s : State) (n : OutputNo) (f : Output → Output) :
    (s.updOutput n f).power = s.power := rfl
@[simp] theorem updOutput_service (s : State) (n : OutputNo) (f : Output → Output) :
    (s.updOutput n f).service = s.service := rfl
@[simp] theorem updOutput_hasConfig (s : State) (n : OutputNo) (f : Output → Output) :
    (s.updOutput n f).hasConfig = s.hasConfig := rfl
@[simp] theorem updOutput_cfg (s : State) (n : OutputNo) (f : Output → Output) :
    (s.updOutput n f).cfg = s.cfg := rfl
@[simp] theorem updOutput_channels (s : State) (n : OutputNo) (f : Output → Output) :
    (s.updOutput n f).channels = s.channels := rfl
@[simp] theorem updOutput_sampledAt (s : State) (n : OutputNo) (f : Output → Output) :
    (s.updOutput n f).sampledAt = s.sampledAt := rfl
@[simp] theorem updOutput_levers (s : State) (n : OutputNo) (f : Output → Output) :
    (s.updOutput n f).levers = s.levers := rfl
@[simp] theorem updOutput_collars (s : State) (n : OutputNo) (f : Output → Output) :
    (s.updOutput n f).collars = s.collars := rfl
@[simp] theorem updOutput_timers (s : State) (n : OutputNo) (f : Output → Output) :
    (s.updOutput n f).timers = s.timers := rfl
@[simp] theorem updOutput_outputs (s : State) (n : OutputNo) (f : Output → Output) :
    (s.updOutput n f).outputs = upd s.outputs n f := rfl
@[simp] theorem updOutput_lanes (s : State) (n : OutputNo) (f : Output → Output) :
    (s.updOutput n f).lanes = s.lanes := rfl
@[simp] theorem updOutput_judged (s : State) (n : OutputNo) (f : Output → Output) :
    (s.updOutput n f).judged = s.judged := rfl
@[simp] theorem updOutput_laneErrA (s : State) (n : OutputNo) (f : Output → Output) :
    (s.updOutput n f).laneErrA = s.laneErrA := rfl
@[simp] theorem updOutput_laneErrB (s : State) (n : OutputNo) (f : Output → Output) :
    (s.updOutput n f).laneErrB = s.laneErrB := rfl
@[simp] theorem updOutput_bells (s : State) (n : OutputNo) (f : Output → Output) :
    (s.updOutput n f).bells = s.bells := rfl
@[simp] theorem updOutput_replay (s : State) (n : OutputNo) (f : Output → Output) :
    (s.updOutput n f).replay = s.replay := rfl
@[simp] theorem updOutput_line (s : State) (n : OutputNo) (f : Output → Output) :
    (s.updOutput n f).line = s.line := rfl
@[simp] theorem updOutput_ends (s : State) (n : OutputNo) (f : Output → Output) :
    (s.updOutput n f).ends = s.ends := rfl
@[simp] theorem updOutput_switch (s : State) (n : OutputNo) (f : Output → Output) :
    (s.updOutput n f).switch = s.switch := rfl
@[simp] theorem updOutput_integrity (s : State) (n : OutputNo) (f : Output → Output) :
    (s.updOutput n f).integrity = s.integrity := rfl
@[simp] theorem updOutput_records (s : State) (n : OutputNo) (f : Output → Output) :
    (s.updOutput n f).records = s.records := rfl
@[simp] theorem updOutput_panel (s : State) (n : OutputNo) (f : Output → Output) :
    (s.updOutput n f).panel = s.panel := rfl
@[simp] theorem updOutput_latches (s : State) (n : OutputNo) (f : Output → Output) :
    (s.updOutput n f).latches = s.latches := rfl
@[simp] theorem updOutput_scanned (s : State) (n : OutputNo) (f : Output → Output) :
    (s.updOutput n f).scanned = s.scanned := rfl
@[simp] theorem updOutput_scanAt (s : State) (n : OutputNo) (f : Output → Output) :
    (s.updOutput n f).scanAt = s.scanAt := rfl
@[simp] theorem updOutput_tickAt (s : State) (n : OutputNo) (f : Output → Output) :
    (s.updOutput n f).tickAt = s.tickAt := rfl

/-! ### updBell -/

@[simp] theorem updBell_pending (s : State) (e : EndNo) (f : BellEnd → BellEnd) :
    (s.updBell e f).pending = s.pending := rfl
@[simp] theorem updBell_clock (s : State) (e : EndNo) (f : BellEnd → BellEnd) :
    (s.updBell e f).clock = s.clock := rfl
@[simp] theorem updBell_power (s : State) (e : EndNo) (f : BellEnd → BellEnd) :
    (s.updBell e f).power = s.power := rfl
@[simp] theorem updBell_service (s : State) (e : EndNo) (f : BellEnd → BellEnd) :
    (s.updBell e f).service = s.service := rfl
@[simp] theorem updBell_hasConfig (s : State) (e : EndNo) (f : BellEnd → BellEnd) :
    (s.updBell e f).hasConfig = s.hasConfig := rfl
@[simp] theorem updBell_cfg (s : State) (e : EndNo) (f : BellEnd → BellEnd) :
    (s.updBell e f).cfg = s.cfg := rfl
@[simp] theorem updBell_channels (s : State) (e : EndNo) (f : BellEnd → BellEnd) :
    (s.updBell e f).channels = s.channels := rfl
@[simp] theorem updBell_sampledAt (s : State) (e : EndNo) (f : BellEnd → BellEnd) :
    (s.updBell e f).sampledAt = s.sampledAt := rfl
@[simp] theorem updBell_levers (s : State) (e : EndNo) (f : BellEnd → BellEnd) :
    (s.updBell e f).levers = s.levers := rfl
@[simp] theorem updBell_collars (s : State) (e : EndNo) (f : BellEnd → BellEnd) :
    (s.updBell e f).collars = s.collars := rfl
@[simp] theorem updBell_timers (s : State) (e : EndNo) (f : BellEnd → BellEnd) :
    (s.updBell e f).timers = s.timers := rfl
@[simp] theorem updBell_outputs (s : State) (e : EndNo) (f : BellEnd → BellEnd) :
    (s.updBell e f).outputs = s.outputs := rfl
@[simp] theorem updBell_lanes (s : State) (e : EndNo) (f : BellEnd → BellEnd) :
    (s.updBell e f).lanes = s.lanes := rfl
@[simp] theorem updBell_judged (s : State) (e : EndNo) (f : BellEnd → BellEnd) :
    (s.updBell e f).judged = s.judged := rfl
@[simp] theorem updBell_laneErrA (s : State) (e : EndNo) (f : BellEnd → BellEnd) :
    (s.updBell e f).laneErrA = s.laneErrA := rfl
@[simp] theorem updBell_laneErrB (s : State) (e : EndNo) (f : BellEnd → BellEnd) :
    (s.updBell e f).laneErrB = s.laneErrB := rfl
@[simp] theorem updBell_bells (s : State) (e : EndNo) (f : BellEnd → BellEnd) :
    (s.updBell e f).bells = upd s.bells e f := rfl
@[simp] theorem updBell_replay (s : State) (e : EndNo) (f : BellEnd → BellEnd) :
    (s.updBell e f).replay = s.replay := rfl
@[simp] theorem updBell_line (s : State) (e : EndNo) (f : BellEnd → BellEnd) :
    (s.updBell e f).line = s.line := rfl
@[simp] theorem updBell_ends (s : State) (e : EndNo) (f : BellEnd → BellEnd) :
    (s.updBell e f).ends = s.ends := rfl
@[simp] theorem updBell_switch (s : State) (e : EndNo) (f : BellEnd → BellEnd) :
    (s.updBell e f).switch = s.switch := rfl
@[simp] theorem updBell_integrity (s : State) (e : EndNo) (f : BellEnd → BellEnd) :
    (s.updBell e f).integrity = s.integrity := rfl
@[simp] theorem updBell_records (s : State) (e : EndNo) (f : BellEnd → BellEnd) :
    (s.updBell e f).records = s.records := rfl
@[simp] theorem updBell_panel (s : State) (e : EndNo) (f : BellEnd → BellEnd) :
    (s.updBell e f).panel = s.panel := rfl
@[simp] theorem updBell_latches (s : State) (e : EndNo) (f : BellEnd → BellEnd) :
    (s.updBell e f).latches = s.latches := rfl
@[simp] theorem updBell_scanned (s : State) (e : EndNo) (f : BellEnd → BellEnd) :
    (s.updBell e f).scanned = s.scanned := rfl
@[simp] theorem updBell_scanAt (s : State) (e : EndNo) (f : BellEnd → BellEnd) :
    (s.updBell e f).scanAt = s.scanAt := rfl
@[simp] theorem updBell_tickAt (s : State) (e : EndNo) (f : BellEnd → BellEnd) :
    (s.updBell e f).tickAt = s.tickAt := rfl

/-! ### updEnd -/

@[simp] theorem updEnd_pending (s : State) (e : EndNo) (f : EndDyn → EndDyn) :
    (s.updEnd e f).pending = s.pending := rfl
@[simp] theorem updEnd_clock (s : State) (e : EndNo) (f : EndDyn → EndDyn) :
    (s.updEnd e f).clock = s.clock := rfl
@[simp] theorem updEnd_power (s : State) (e : EndNo) (f : EndDyn → EndDyn) :
    (s.updEnd e f).power = s.power := rfl
@[simp] theorem updEnd_service (s : State) (e : EndNo) (f : EndDyn → EndDyn) :
    (s.updEnd e f).service = s.service := rfl
@[simp] theorem updEnd_hasConfig (s : State) (e : EndNo) (f : EndDyn → EndDyn) :
    (s.updEnd e f).hasConfig = s.hasConfig := rfl
@[simp] theorem updEnd_cfg (s : State) (e : EndNo) (f : EndDyn → EndDyn) :
    (s.updEnd e f).cfg = s.cfg := rfl
@[simp] theorem updEnd_channels (s : State) (e : EndNo) (f : EndDyn → EndDyn) :
    (s.updEnd e f).channels = s.channels := rfl
@[simp] theorem updEnd_sampledAt (s : State) (e : EndNo) (f : EndDyn → EndDyn) :
    (s.updEnd e f).sampledAt = s.sampledAt := rfl
@[simp] theorem updEnd_levers (s : State) (e : EndNo) (f : EndDyn → EndDyn) :
    (s.updEnd e f).levers = s.levers := rfl
@[simp] theorem updEnd_collars (s : State) (e : EndNo) (f : EndDyn → EndDyn) :
    (s.updEnd e f).collars = s.collars := rfl
@[simp] theorem updEnd_timers (s : State) (e : EndNo) (f : EndDyn → EndDyn) :
    (s.updEnd e f).timers = s.timers := rfl
@[simp] theorem updEnd_outputs (s : State) (e : EndNo) (f : EndDyn → EndDyn) :
    (s.updEnd e f).outputs = s.outputs := rfl
@[simp] theorem updEnd_lanes (s : State) (e : EndNo) (f : EndDyn → EndDyn) :
    (s.updEnd e f).lanes = s.lanes := rfl
@[simp] theorem updEnd_judged (s : State) (e : EndNo) (f : EndDyn → EndDyn) :
    (s.updEnd e f).judged = s.judged := rfl
@[simp] theorem updEnd_laneErrA (s : State) (e : EndNo) (f : EndDyn → EndDyn) :
    (s.updEnd e f).laneErrA = s.laneErrA := rfl
@[simp] theorem updEnd_laneErrB (s : State) (e : EndNo) (f : EndDyn → EndDyn) :
    (s.updEnd e f).laneErrB = s.laneErrB := rfl
@[simp] theorem updEnd_bells (s : State) (e : EndNo) (f : EndDyn → EndDyn) :
    (s.updEnd e f).bells = s.bells := rfl
@[simp] theorem updEnd_replay (s : State) (e : EndNo) (f : EndDyn → EndDyn) :
    (s.updEnd e f).replay = s.replay := rfl
@[simp] theorem updEnd_line (s : State) (e : EndNo) (f : EndDyn → EndDyn) :
    (s.updEnd e f).line = s.line := rfl
@[simp] theorem updEnd_ends (s : State) (e : EndNo) (f : EndDyn → EndDyn) :
    (s.updEnd e f).ends = upd s.ends e f := rfl
@[simp] theorem updEnd_switch (s : State) (e : EndNo) (f : EndDyn → EndDyn) :
    (s.updEnd e f).switch = s.switch := rfl
@[simp] theorem updEnd_integrity (s : State) (e : EndNo) (f : EndDyn → EndDyn) :
    (s.updEnd e f).integrity = s.integrity := rfl
@[simp] theorem updEnd_records (s : State) (e : EndNo) (f : EndDyn → EndDyn) :
    (s.updEnd e f).records = s.records := rfl
@[simp] theorem updEnd_panel (s : State) (e : EndNo) (f : EndDyn → EndDyn) :
    (s.updEnd e f).panel = s.panel := rfl
@[simp] theorem updEnd_latches (s : State) (e : EndNo) (f : EndDyn → EndDyn) :
    (s.updEnd e f).latches = s.latches := rfl
@[simp] theorem updEnd_scanned (s : State) (e : EndNo) (f : EndDyn → EndDyn) :
    (s.updEnd e f).scanned = s.scanned := rfl
@[simp] theorem updEnd_scanAt (s : State) (e : EndNo) (f : EndDyn → EndDyn) :
    (s.updEnd e f).scanAt = s.scanAt := rfl
@[simp] theorem updEnd_tickAt (s : State) (e : EndNo) (f : EndDyn → EndDyn) :
    (s.updEnd e f).tickAt = s.tickAt := rfl

/-! ### updView -/

@[simp] theorem updView_pending (s : State) (e : EndNo) (f : View → View) :
    (s.updView e f).pending = s.pending := rfl
@[simp] theorem updView_clock (s : State) (e : EndNo) (f : View → View) :
    (s.updView e f).clock = s.clock := rfl
@[simp] theorem updView_power (s : State) (e : EndNo) (f : View → View) :
    (s.updView e f).power = s.power := rfl
@[simp] theorem updView_service (s : State) (e : EndNo) (f : View → View) :
    (s.updView e f).service = s.service := rfl
@[simp] theorem updView_hasConfig (s : State) (e : EndNo) (f : View → View) :
    (s.updView e f).hasConfig = s.hasConfig := rfl
@[simp] theorem updView_cfg (s : State) (e : EndNo) (f : View → View) :
    (s.updView e f).cfg = s.cfg := rfl
@[simp] theorem updView_channels (s : State) (e : EndNo) (f : View → View) :
    (s.updView e f).channels = s.channels := rfl
@[simp] theorem updView_sampledAt (s : State) (e : EndNo) (f : View → View) :
    (s.updView e f).sampledAt = s.sampledAt := rfl
@[simp] theorem updView_levers (s : State) (e : EndNo) (f : View → View) :
    (s.updView e f).levers = s.levers := rfl
@[simp] theorem updView_collars (s : State) (e : EndNo) (f : View → View) :
    (s.updView e f).collars = s.collars := rfl
@[simp] theorem updView_timers (s : State) (e : EndNo) (f : View → View) :
    (s.updView e f).timers = s.timers := rfl
@[simp] theorem updView_outputs (s : State) (e : EndNo) (f : View → View) :
    (s.updView e f).outputs = s.outputs := rfl
@[simp] theorem updView_lanes (s : State) (e : EndNo) (f : View → View) :
    (s.updView e f).lanes = s.lanes := rfl
@[simp] theorem updView_judged (s : State) (e : EndNo) (f : View → View) :
    (s.updView e f).judged = s.judged := rfl
@[simp] theorem updView_laneErrA (s : State) (e : EndNo) (f : View → View) :
    (s.updView e f).laneErrA = s.laneErrA := rfl
@[simp] theorem updView_laneErrB (s : State) (e : EndNo) (f : View → View) :
    (s.updView e f).laneErrB = s.laneErrB := rfl
@[simp] theorem updView_bells (s : State) (e : EndNo) (f : View → View) :
    (s.updView e f).bells = s.bells := rfl
@[simp] theorem updView_replay (s : State) (e : EndNo) (f : View → View) :
    (s.updView e f).replay = s.replay := rfl
@[simp] theorem updView_line (s : State) (e : EndNo) (f : View → View) :
    (s.updView e f).line = s.line := rfl
@[simp] theorem updView_ends (s : State) (e : EndNo) (f : View → View) :
    (s.updView e f).ends = upd s.ends e fun d => { d with view := f d.view } := rfl
@[simp] theorem updView_switch (s : State) (e : EndNo) (f : View → View) :
    (s.updView e f).switch = s.switch := rfl
@[simp] theorem updView_integrity (s : State) (e : EndNo) (f : View → View) :
    (s.updView e f).integrity = s.integrity := rfl
@[simp] theorem updView_records (s : State) (e : EndNo) (f : View → View) :
    (s.updView e f).records = s.records := rfl
@[simp] theorem updView_panel (s : State) (e : EndNo) (f : View → View) :
    (s.updView e f).panel = s.panel := rfl
@[simp] theorem updView_latches (s : State) (e : EndNo) (f : View → View) :
    (s.updView e f).latches = s.latches := rfl
@[simp] theorem updView_scanned (s : State) (e : EndNo) (f : View → View) :
    (s.updView e f).scanned = s.scanned := rfl
@[simp] theorem updView_scanAt (s : State) (e : EndNo) (f : View → View) :
    (s.updView e f).scanAt = s.scanAt := rfl
@[simp] theorem updView_tickAt (s : State) (e : EndNo) (f : View → View) :
    (s.updView e f).tickAt = s.tickAt := rfl

/-! ### updComm -/

@[simp] theorem updComm_pending (s : State) (e : EndNo) (f : Commutator → Commutator) :
    (s.updComm e f).pending = s.pending := rfl
@[simp] theorem updComm_clock (s : State) (e : EndNo) (f : Commutator → Commutator) :
    (s.updComm e f).clock = s.clock := rfl
@[simp] theorem updComm_power (s : State) (e : EndNo) (f : Commutator → Commutator) :
    (s.updComm e f).power = s.power := rfl
@[simp] theorem updComm_service (s : State) (e : EndNo) (f : Commutator → Commutator) :
    (s.updComm e f).service = s.service := rfl
@[simp] theorem updComm_hasConfig (s : State) (e : EndNo) (f : Commutator → Commutator) :
    (s.updComm e f).hasConfig = s.hasConfig := rfl
@[simp] theorem updComm_cfg (s : State) (e : EndNo) (f : Commutator → Commutator) :
    (s.updComm e f).cfg = s.cfg := rfl
@[simp] theorem updComm_channels (s : State) (e : EndNo) (f : Commutator → Commutator) :
    (s.updComm e f).channels = s.channels := rfl
@[simp] theorem updComm_sampledAt (s : State) (e : EndNo) (f : Commutator → Commutator) :
    (s.updComm e f).sampledAt = s.sampledAt := rfl
@[simp] theorem updComm_levers (s : State) (e : EndNo) (f : Commutator → Commutator) :
    (s.updComm e f).levers = s.levers := rfl
@[simp] theorem updComm_collars (s : State) (e : EndNo) (f : Commutator → Commutator) :
    (s.updComm e f).collars = s.collars := rfl
@[simp] theorem updComm_timers (s : State) (e : EndNo) (f : Commutator → Commutator) :
    (s.updComm e f).timers = s.timers := rfl
@[simp] theorem updComm_outputs (s : State) (e : EndNo) (f : Commutator → Commutator) :
    (s.updComm e f).outputs = s.outputs := rfl
@[simp] theorem updComm_lanes (s : State) (e : EndNo) (f : Commutator → Commutator) :
    (s.updComm e f).lanes = s.lanes := rfl
@[simp] theorem updComm_judged (s : State) (e : EndNo) (f : Commutator → Commutator) :
    (s.updComm e f).judged = s.judged := rfl
@[simp] theorem updComm_laneErrA (s : State) (e : EndNo) (f : Commutator → Commutator) :
    (s.updComm e f).laneErrA = s.laneErrA := rfl
@[simp] theorem updComm_laneErrB (s : State) (e : EndNo) (f : Commutator → Commutator) :
    (s.updComm e f).laneErrB = s.laneErrB := rfl
@[simp] theorem updComm_bells (s : State) (e : EndNo) (f : Commutator → Commutator) :
    (s.updComm e f).bells = s.bells := rfl
@[simp] theorem updComm_replay (s : State) (e : EndNo) (f : Commutator → Commutator) :
    (s.updComm e f).replay = s.replay := rfl
@[simp] theorem updComm_line (s : State) (e : EndNo) (f : Commutator → Commutator) :
    (s.updComm e f).line = s.line := rfl
@[simp] theorem updComm_ends (s : State) (e : EndNo) (f : Commutator → Commutator) :
    (s.updComm e f).ends = upd s.ends e fun d => { d with comm := f d.comm } := rfl
@[simp] theorem updComm_switch (s : State) (e : EndNo) (f : Commutator → Commutator) :
    (s.updComm e f).switch = s.switch := rfl
@[simp] theorem updComm_integrity (s : State) (e : EndNo) (f : Commutator → Commutator) :
    (s.updComm e f).integrity = s.integrity := rfl
@[simp] theorem updComm_records (s : State) (e : EndNo) (f : Commutator → Commutator) :
    (s.updComm e f).records = s.records := rfl
@[simp] theorem updComm_panel (s : State) (e : EndNo) (f : Commutator → Commutator) :
    (s.updComm e f).panel = s.panel := rfl
@[simp] theorem updComm_latches (s : State) (e : EndNo) (f : Commutator → Commutator) :
    (s.updComm e f).latches = s.latches := rfl
@[simp] theorem updComm_scanned (s : State) (e : EndNo) (f : Commutator → Commutator) :
    (s.updComm e f).scanned = s.scanned := rfl
@[simp] theorem updComm_scanAt (s : State) (e : EndNo) (f : Commutator → Commutator) :
    (s.updComm e f).scanAt = s.scanAt := rfl
@[simp] theorem updComm_tickAt (s : State) (e : EndNo) (f : Commutator → Commutator) :
    (s.updComm e f).tickAt = s.tickAt := rfl

/-! ### updLine -/

@[simp] theorem updLine_pending (s : State) (f : LineUnit → LineUnit) :
    (s.updLine f).pending = s.pending := rfl
@[simp] theorem updLine_clock (s : State) (f : LineUnit → LineUnit) :
    (s.updLine f).clock = s.clock := rfl
@[simp] theorem updLine_power (s : State) (f : LineUnit → LineUnit) :
    (s.updLine f).power = s.power := rfl
@[simp] theorem updLine_service (s : State) (f : LineUnit → LineUnit) :
    (s.updLine f).service = s.service := rfl
@[simp] theorem updLine_hasConfig (s : State) (f : LineUnit → LineUnit) :
    (s.updLine f).hasConfig = s.hasConfig := rfl
@[simp] theorem updLine_cfg (s : State) (f : LineUnit → LineUnit) :
    (s.updLine f).cfg = s.cfg := rfl
@[simp] theorem updLine_channels (s : State) (f : LineUnit → LineUnit) :
    (s.updLine f).channels = s.channels := rfl
@[simp] theorem updLine_sampledAt (s : State) (f : LineUnit → LineUnit) :
    (s.updLine f).sampledAt = s.sampledAt := rfl
@[simp] theorem updLine_levers (s : State) (f : LineUnit → LineUnit) :
    (s.updLine f).levers = s.levers := rfl
@[simp] theorem updLine_collars (s : State) (f : LineUnit → LineUnit) :
    (s.updLine f).collars = s.collars := rfl
@[simp] theorem updLine_timers (s : State) (f : LineUnit → LineUnit) :
    (s.updLine f).timers = s.timers := rfl
@[simp] theorem updLine_outputs (s : State) (f : LineUnit → LineUnit) :
    (s.updLine f).outputs = s.outputs := rfl
@[simp] theorem updLine_lanes (s : State) (f : LineUnit → LineUnit) :
    (s.updLine f).lanes = s.lanes := rfl
@[simp] theorem updLine_judged (s : State) (f : LineUnit → LineUnit) :
    (s.updLine f).judged = s.judged := rfl
@[simp] theorem updLine_laneErrA (s : State) (f : LineUnit → LineUnit) :
    (s.updLine f).laneErrA = s.laneErrA := rfl
@[simp] theorem updLine_laneErrB (s : State) (f : LineUnit → LineUnit) :
    (s.updLine f).laneErrB = s.laneErrB := rfl
@[simp] theorem updLine_bells (s : State) (f : LineUnit → LineUnit) :
    (s.updLine f).bells = s.bells := rfl
@[simp] theorem updLine_replay (s : State) (f : LineUnit → LineUnit) :
    (s.updLine f).replay = s.replay := rfl
@[simp] theorem updLine_line (s : State) (f : LineUnit → LineUnit) :
    (s.updLine f).line = f s.line := rfl
@[simp] theorem updLine_ends (s : State) (f : LineUnit → LineUnit) :
    (s.updLine f).ends = s.ends := rfl
@[simp] theorem updLine_switch (s : State) (f : LineUnit → LineUnit) :
    (s.updLine f).switch = s.switch := rfl
@[simp] theorem updLine_integrity (s : State) (f : LineUnit → LineUnit) :
    (s.updLine f).integrity = s.integrity := rfl
@[simp] theorem updLine_records (s : State) (f : LineUnit → LineUnit) :
    (s.updLine f).records = s.records := rfl
@[simp] theorem updLine_panel (s : State) (f : LineUnit → LineUnit) :
    (s.updLine f).panel = s.panel := rfl
@[simp] theorem updLine_latches (s : State) (f : LineUnit → LineUnit) :
    (s.updLine f).latches = s.latches := rfl
@[simp] theorem updLine_scanned (s : State) (f : LineUnit → LineUnit) :
    (s.updLine f).scanned = s.scanned := rfl
@[simp] theorem updLine_scanAt (s : State) (f : LineUnit → LineUnit) :
    (s.updLine f).scanAt = s.scanAt := rfl
@[simp] theorem updLine_tickAt (s : State) (f : LineUnit → LineUnit) :
    (s.updLine f).tickAt = s.tickAt := rfl

/-! ### updLineEnd -/

@[simp] theorem updLineEnd_pending (s : State) (e : EndNo) (f : LineEnd → LineEnd) :
    (s.updLineEnd e f).pending = s.pending := rfl
@[simp] theorem updLineEnd_clock (s : State) (e : EndNo) (f : LineEnd → LineEnd) :
    (s.updLineEnd e f).clock = s.clock := rfl
@[simp] theorem updLineEnd_power (s : State) (e : EndNo) (f : LineEnd → LineEnd) :
    (s.updLineEnd e f).power = s.power := rfl
@[simp] theorem updLineEnd_service (s : State) (e : EndNo) (f : LineEnd → LineEnd) :
    (s.updLineEnd e f).service = s.service := rfl
@[simp] theorem updLineEnd_hasConfig (s : State) (e : EndNo) (f : LineEnd → LineEnd) :
    (s.updLineEnd e f).hasConfig = s.hasConfig := rfl
@[simp] theorem updLineEnd_cfg (s : State) (e : EndNo) (f : LineEnd → LineEnd) :
    (s.updLineEnd e f).cfg = s.cfg := rfl
@[simp] theorem updLineEnd_channels (s : State) (e : EndNo) (f : LineEnd → LineEnd) :
    (s.updLineEnd e f).channels = s.channels := rfl
@[simp] theorem updLineEnd_sampledAt (s : State) (e : EndNo) (f : LineEnd → LineEnd) :
    (s.updLineEnd e f).sampledAt = s.sampledAt := rfl
@[simp] theorem updLineEnd_levers (s : State) (e : EndNo) (f : LineEnd → LineEnd) :
    (s.updLineEnd e f).levers = s.levers := rfl
@[simp] theorem updLineEnd_collars (s : State) (e : EndNo) (f : LineEnd → LineEnd) :
    (s.updLineEnd e f).collars = s.collars := rfl
@[simp] theorem updLineEnd_timers (s : State) (e : EndNo) (f : LineEnd → LineEnd) :
    (s.updLineEnd e f).timers = s.timers := rfl
@[simp] theorem updLineEnd_outputs (s : State) (e : EndNo) (f : LineEnd → LineEnd) :
    (s.updLineEnd e f).outputs = s.outputs := rfl
@[simp] theorem updLineEnd_lanes (s : State) (e : EndNo) (f : LineEnd → LineEnd) :
    (s.updLineEnd e f).lanes = s.lanes := rfl
@[simp] theorem updLineEnd_judged (s : State) (e : EndNo) (f : LineEnd → LineEnd) :
    (s.updLineEnd e f).judged = s.judged := rfl
@[simp] theorem updLineEnd_laneErrA (s : State) (e : EndNo) (f : LineEnd → LineEnd) :
    (s.updLineEnd e f).laneErrA = s.laneErrA := rfl
@[simp] theorem updLineEnd_laneErrB (s : State) (e : EndNo) (f : LineEnd → LineEnd) :
    (s.updLineEnd e f).laneErrB = s.laneErrB := rfl
@[simp] theorem updLineEnd_bells (s : State) (e : EndNo) (f : LineEnd → LineEnd) :
    (s.updLineEnd e f).bells = s.bells := rfl
@[simp] theorem updLineEnd_replay (s : State) (e : EndNo) (f : LineEnd → LineEnd) :
    (s.updLineEnd e f).replay = s.replay := rfl
@[simp] theorem updLineEnd_line (s : State) (e : EndNo) (f : LineEnd → LineEnd) :
    (s.updLineEnd e f).line = { s.line with ends := upd s.line.ends e f } := rfl
@[simp] theorem updLineEnd_ends (s : State) (e : EndNo) (f : LineEnd → LineEnd) :
    (s.updLineEnd e f).ends = s.ends := rfl
@[simp] theorem updLineEnd_switch (s : State) (e : EndNo) (f : LineEnd → LineEnd) :
    (s.updLineEnd e f).switch = s.switch := rfl
@[simp] theorem updLineEnd_integrity (s : State) (e : EndNo) (f : LineEnd → LineEnd) :
    (s.updLineEnd e f).integrity = s.integrity := rfl
@[simp] theorem updLineEnd_records (s : State) (e : EndNo) (f : LineEnd → LineEnd) :
    (s.updLineEnd e f).records = s.records := rfl
@[simp] theorem updLineEnd_panel (s : State) (e : EndNo) (f : LineEnd → LineEnd) :
    (s.updLineEnd e f).panel = s.panel := rfl
@[simp] theorem updLineEnd_latches (s : State) (e : EndNo) (f : LineEnd → LineEnd) :
    (s.updLineEnd e f).latches = s.latches := rfl
@[simp] theorem updLineEnd_scanned (s : State) (e : EndNo) (f : LineEnd → LineEnd) :
    (s.updLineEnd e f).scanned = s.scanned := rfl
@[simp] theorem updLineEnd_scanAt (s : State) (e : EndNo) (f : LineEnd → LineEnd) :
    (s.updLineEnd e f).scanAt = s.scanAt := rfl
@[simp] theorem updLineEnd_tickAt (s : State) (e : EndNo) (f : LineEnd → LineEnd) :
    (s.updLineEnd e f).tickAt = s.tickAt := rfl

/-! ### updStation -/

@[simp] theorem updStation_pending (s : State) (a : Addr) (f : StationRec → StationRec) :
    (s.updStation a f).pending = s.pending := rfl
@[simp] theorem updStation_clock (s : State) (a : Addr) (f : StationRec → StationRec) :
    (s.updStation a f).clock = s.clock := rfl
@[simp] theorem updStation_power (s : State) (a : Addr) (f : StationRec → StationRec) :
    (s.updStation a f).power = s.power := rfl
@[simp] theorem updStation_service (s : State) (a : Addr) (f : StationRec → StationRec) :
    (s.updStation a f).service = s.service := rfl
@[simp] theorem updStation_hasConfig (s : State) (a : Addr) (f : StationRec → StationRec) :
    (s.updStation a f).hasConfig = s.hasConfig := rfl
@[simp] theorem updStation_cfg (s : State) (a : Addr) (f : StationRec → StationRec) :
    (s.updStation a f).cfg = s.cfg := rfl
@[simp] theorem updStation_channels (s : State) (a : Addr) (f : StationRec → StationRec) :
    (s.updStation a f).channels = s.channels := rfl
@[simp] theorem updStation_sampledAt (s : State) (a : Addr) (f : StationRec → StationRec) :
    (s.updStation a f).sampledAt = s.sampledAt := rfl
@[simp] theorem updStation_levers (s : State) (a : Addr) (f : StationRec → StationRec) :
    (s.updStation a f).levers = s.levers := rfl
@[simp] theorem updStation_collars (s : State) (a : Addr) (f : StationRec → StationRec) :
    (s.updStation a f).collars = s.collars := rfl
@[simp] theorem updStation_timers (s : State) (a : Addr) (f : StationRec → StationRec) :
    (s.updStation a f).timers = s.timers := rfl
@[simp] theorem updStation_outputs (s : State) (a : Addr) (f : StationRec → StationRec) :
    (s.updStation a f).outputs = s.outputs := rfl
@[simp] theorem updStation_lanes (s : State) (a : Addr) (f : StationRec → StationRec) :
    (s.updStation a f).lanes = s.lanes := rfl
@[simp] theorem updStation_judged (s : State) (a : Addr) (f : StationRec → StationRec) :
    (s.updStation a f).judged = s.judged := rfl
@[simp] theorem updStation_laneErrA (s : State) (a : Addr) (f : StationRec → StationRec) :
    (s.updStation a f).laneErrA = s.laneErrA := rfl
@[simp] theorem updStation_laneErrB (s : State) (a : Addr) (f : StationRec → StationRec) :
    (s.updStation a f).laneErrB = s.laneErrB := rfl
@[simp] theorem updStation_bells (s : State) (a : Addr) (f : StationRec → StationRec) :
    (s.updStation a f).bells = s.bells := rfl
@[simp] theorem updStation_replay (s : State) (a : Addr) (f : StationRec → StationRec) :
    (s.updStation a f).replay = s.replay := rfl
@[simp] theorem updStation_line (s : State) (a : Addr) (f : StationRec → StationRec) :
    (s.updStation a f).line = { s.line with stations := upd s.line.stations a f } := rfl
@[simp] theorem updStation_ends (s : State) (a : Addr) (f : StationRec → StationRec) :
    (s.updStation a f).ends = s.ends := rfl
@[simp] theorem updStation_switch (s : State) (a : Addr) (f : StationRec → StationRec) :
    (s.updStation a f).switch = s.switch := rfl
@[simp] theorem updStation_integrity (s : State) (a : Addr) (f : StationRec → StationRec) :
    (s.updStation a f).integrity = s.integrity := rfl
@[simp] theorem updStation_records (s : State) (a : Addr) (f : StationRec → StationRec) :
    (s.updStation a f).records = s.records := rfl
@[simp] theorem updStation_panel (s : State) (a : Addr) (f : StationRec → StationRec) :
    (s.updStation a f).panel = s.panel := rfl
@[simp] theorem updStation_latches (s : State) (a : Addr) (f : StationRec → StationRec) :
    (s.updStation a f).latches = s.latches := rfl
@[simp] theorem updStation_scanned (s : State) (a : Addr) (f : StationRec → StationRec) :
    (s.updStation a f).scanned = s.scanned := rfl
@[simp] theorem updStation_scanAt (s : State) (a : Addr) (f : StationRec → StationRec) :
    (s.updStation a f).scanAt = s.scanAt := rfl
@[simp] theorem updStation_tickAt (s : State) (a : Addr) (f : StationRec → StationRec) :
    (s.updStation a f).tickAt = s.tickAt := rfl

/-! ### updSub -/

@[simp] theorem updSub_pending (s : State) (i : SubNo) (f : SubEntry → SubEntry) :
    (s.updSub i f).pending = s.pending := rfl
@[simp] theorem updSub_clock (s : State) (i : SubNo) (f : SubEntry → SubEntry) :
    (s.updSub i f).clock = s.clock := rfl
@[simp] theorem updSub_power (s : State) (i : SubNo) (f : SubEntry → SubEntry) :
    (s.updSub i f).power = s.power := rfl
@[simp] theorem updSub_service (s : State) (i : SubNo) (f : SubEntry → SubEntry) :
    (s.updSub i f).service = s.service := rfl
@[simp] theorem updSub_hasConfig (s : State) (i : SubNo) (f : SubEntry → SubEntry) :
    (s.updSub i f).hasConfig = s.hasConfig := rfl
@[simp] theorem updSub_cfg (s : State) (i : SubNo) (f : SubEntry → SubEntry) :
    (s.updSub i f).cfg = s.cfg := rfl
@[simp] theorem updSub_channels (s : State) (i : SubNo) (f : SubEntry → SubEntry) :
    (s.updSub i f).channels = s.channels := rfl
@[simp] theorem updSub_sampledAt (s : State) (i : SubNo) (f : SubEntry → SubEntry) :
    (s.updSub i f).sampledAt = s.sampledAt := rfl
@[simp] theorem updSub_levers (s : State) (i : SubNo) (f : SubEntry → SubEntry) :
    (s.updSub i f).levers = s.levers := rfl
@[simp] theorem updSub_collars (s : State) (i : SubNo) (f : SubEntry → SubEntry) :
    (s.updSub i f).collars = s.collars := rfl
@[simp] theorem updSub_timers (s : State) (i : SubNo) (f : SubEntry → SubEntry) :
    (s.updSub i f).timers = s.timers := rfl
@[simp] theorem updSub_outputs (s : State) (i : SubNo) (f : SubEntry → SubEntry) :
    (s.updSub i f).outputs = s.outputs := rfl
@[simp] theorem updSub_lanes (s : State) (i : SubNo) (f : SubEntry → SubEntry) :
    (s.updSub i f).lanes = s.lanes := rfl
@[simp] theorem updSub_judged (s : State) (i : SubNo) (f : SubEntry → SubEntry) :
    (s.updSub i f).judged = s.judged := rfl
@[simp] theorem updSub_laneErrA (s : State) (i : SubNo) (f : SubEntry → SubEntry) :
    (s.updSub i f).laneErrA = s.laneErrA := rfl
@[simp] theorem updSub_laneErrB (s : State) (i : SubNo) (f : SubEntry → SubEntry) :
    (s.updSub i f).laneErrB = s.laneErrB := rfl
@[simp] theorem updSub_bells (s : State) (i : SubNo) (f : SubEntry → SubEntry) :
    (s.updSub i f).bells = s.bells := rfl
@[simp] theorem updSub_replay (s : State) (i : SubNo) (f : SubEntry → SubEntry) :
    (s.updSub i f).replay = s.replay := rfl
@[simp] theorem updSub_line (s : State) (i : SubNo) (f : SubEntry → SubEntry) :
    (s.updSub i f).line = { s.line with subs := upd s.line.subs i f } := rfl
@[simp] theorem updSub_ends (s : State) (i : SubNo) (f : SubEntry → SubEntry) :
    (s.updSub i f).ends = s.ends := rfl
@[simp] theorem updSub_switch (s : State) (i : SubNo) (f : SubEntry → SubEntry) :
    (s.updSub i f).switch = s.switch := rfl
@[simp] theorem updSub_integrity (s : State) (i : SubNo) (f : SubEntry → SubEntry) :
    (s.updSub i f).integrity = s.integrity := rfl
@[simp] theorem updSub_records (s : State) (i : SubNo) (f : SubEntry → SubEntry) :
    (s.updSub i f).records = s.records := rfl
@[simp] theorem updSub_panel (s : State) (i : SubNo) (f : SubEntry → SubEntry) :
    (s.updSub i f).panel = s.panel := rfl
@[simp] theorem updSub_latches (s : State) (i : SubNo) (f : SubEntry → SubEntry) :
    (s.updSub i f).latches = s.latches := rfl
@[simp] theorem updSub_scanned (s : State) (i : SubNo) (f : SubEntry → SubEntry) :
    (s.updSub i f).scanned = s.scanned := rfl
@[simp] theorem updSub_scanAt (s : State) (i : SubNo) (f : SubEntry → SubEntry) :
    (s.updSub i f).scanAt = s.scanAt := rfl
@[simp] theorem updSub_tickAt (s : State) (i : SubNo) (f : SubEntry → SubEntry) :
    (s.updSub i f).tickAt = s.tickAt := rfl

/-! ### updIntegrity -/

@[simp] theorem updIntegrity_pending (s : State) (f : Integrity → Integrity) :
    (s.updIntegrity f).pending = s.pending := rfl
@[simp] theorem updIntegrity_clock (s : State) (f : Integrity → Integrity) :
    (s.updIntegrity f).clock = s.clock := rfl
@[simp] theorem updIntegrity_power (s : State) (f : Integrity → Integrity) :
    (s.updIntegrity f).power = s.power := rfl
@[simp] theorem updIntegrity_service (s : State) (f : Integrity → Integrity) :
    (s.updIntegrity f).service = s.service := rfl
@[simp] theorem updIntegrity_hasConfig (s : State) (f : Integrity → Integrity) :
    (s.updIntegrity f).hasConfig = s.hasConfig := rfl
@[simp] theorem updIntegrity_cfg (s : State) (f : Integrity → Integrity) :
    (s.updIntegrity f).cfg = s.cfg := rfl
@[simp] theorem updIntegrity_channels (s : State) (f : Integrity → Integrity) :
    (s.updIntegrity f).channels = s.channels := rfl
@[simp] theorem updIntegrity_sampledAt (s : State) (f : Integrity → Integrity) :
    (s.updIntegrity f).sampledAt = s.sampledAt := rfl
@[simp] theorem updIntegrity_levers (s : State) (f : Integrity → Integrity) :
    (s.updIntegrity f).levers = s.levers := rfl
@[simp] theorem updIntegrity_collars (s : State) (f : Integrity → Integrity) :
    (s.updIntegrity f).collars = s.collars := rfl
@[simp] theorem updIntegrity_timers (s : State) (f : Integrity → Integrity) :
    (s.updIntegrity f).timers = s.timers := rfl
@[simp] theorem updIntegrity_outputs (s : State) (f : Integrity → Integrity) :
    (s.updIntegrity f).outputs = s.outputs := rfl
@[simp] theorem updIntegrity_lanes (s : State) (f : Integrity → Integrity) :
    (s.updIntegrity f).lanes = s.lanes := rfl
@[simp] theorem updIntegrity_judged (s : State) (f : Integrity → Integrity) :
    (s.updIntegrity f).judged = s.judged := rfl
@[simp] theorem updIntegrity_laneErrA (s : State) (f : Integrity → Integrity) :
    (s.updIntegrity f).laneErrA = s.laneErrA := rfl
@[simp] theorem updIntegrity_laneErrB (s : State) (f : Integrity → Integrity) :
    (s.updIntegrity f).laneErrB = s.laneErrB := rfl
@[simp] theorem updIntegrity_bells (s : State) (f : Integrity → Integrity) :
    (s.updIntegrity f).bells = s.bells := rfl
@[simp] theorem updIntegrity_replay (s : State) (f : Integrity → Integrity) :
    (s.updIntegrity f).replay = s.replay := rfl
@[simp] theorem updIntegrity_line (s : State) (f : Integrity → Integrity) :
    (s.updIntegrity f).line = s.line := rfl
@[simp] theorem updIntegrity_ends (s : State) (f : Integrity → Integrity) :
    (s.updIntegrity f).ends = s.ends := rfl
@[simp] theorem updIntegrity_switch (s : State) (f : Integrity → Integrity) :
    (s.updIntegrity f).switch = s.switch := rfl
@[simp] theorem updIntegrity_integrity (s : State) (f : Integrity → Integrity) :
    (s.updIntegrity f).integrity = f s.integrity := rfl
@[simp] theorem updIntegrity_records (s : State) (f : Integrity → Integrity) :
    (s.updIntegrity f).records = s.records := rfl
@[simp] theorem updIntegrity_panel (s : State) (f : Integrity → Integrity) :
    (s.updIntegrity f).panel = s.panel := rfl
@[simp] theorem updIntegrity_latches (s : State) (f : Integrity → Integrity) :
    (s.updIntegrity f).latches = s.latches := rfl
@[simp] theorem updIntegrity_scanned (s : State) (f : Integrity → Integrity) :
    (s.updIntegrity f).scanned = s.scanned := rfl
@[simp] theorem updIntegrity_scanAt (s : State) (f : Integrity → Integrity) :
    (s.updIntegrity f).scanAt = s.scanAt := rfl
@[simp] theorem updIntegrity_tickAt (s : State) (f : Integrity → Integrity) :
    (s.updIntegrity f).tickAt = s.tickAt := rfl

/-! ### updPanel -/

@[simp] theorem updPanel_pending (s : State) (f : PanelUnit → PanelUnit) :
    (s.updPanel f).pending = s.pending := rfl
@[simp] theorem updPanel_clock (s : State) (f : PanelUnit → PanelUnit) :
    (s.updPanel f).clock = s.clock := rfl
@[simp] theorem updPanel_power (s : State) (f : PanelUnit → PanelUnit) :
    (s.updPanel f).power = s.power := rfl
@[simp] theorem updPanel_service (s : State) (f : PanelUnit → PanelUnit) :
    (s.updPanel f).service = s.service := rfl
@[simp] theorem updPanel_hasConfig (s : State) (f : PanelUnit → PanelUnit) :
    (s.updPanel f).hasConfig = s.hasConfig := rfl
@[simp] theorem updPanel_cfg (s : State) (f : PanelUnit → PanelUnit) :
    (s.updPanel f).cfg = s.cfg := rfl
@[simp] theorem updPanel_channels (s : State) (f : PanelUnit → PanelUnit) :
    (s.updPanel f).channels = s.channels := rfl
@[simp] theorem updPanel_sampledAt (s : State) (f : PanelUnit → PanelUnit) :
    (s.updPanel f).sampledAt = s.sampledAt := rfl
@[simp] theorem updPanel_levers (s : State) (f : PanelUnit → PanelUnit) :
    (s.updPanel f).levers = s.levers := rfl
@[simp] theorem updPanel_collars (s : State) (f : PanelUnit → PanelUnit) :
    (s.updPanel f).collars = s.collars := rfl
@[simp] theorem updPanel_timers (s : State) (f : PanelUnit → PanelUnit) :
    (s.updPanel f).timers = s.timers := rfl
@[simp] theorem updPanel_outputs (s : State) (f : PanelUnit → PanelUnit) :
    (s.updPanel f).outputs = s.outputs := rfl
@[simp] theorem updPanel_lanes (s : State) (f : PanelUnit → PanelUnit) :
    (s.updPanel f).lanes = s.lanes := rfl
@[simp] theorem updPanel_judged (s : State) (f : PanelUnit → PanelUnit) :
    (s.updPanel f).judged = s.judged := rfl
@[simp] theorem updPanel_laneErrA (s : State) (f : PanelUnit → PanelUnit) :
    (s.updPanel f).laneErrA = s.laneErrA := rfl
@[simp] theorem updPanel_laneErrB (s : State) (f : PanelUnit → PanelUnit) :
    (s.updPanel f).laneErrB = s.laneErrB := rfl
@[simp] theorem updPanel_bells (s : State) (f : PanelUnit → PanelUnit) :
    (s.updPanel f).bells = s.bells := rfl
@[simp] theorem updPanel_replay (s : State) (f : PanelUnit → PanelUnit) :
    (s.updPanel f).replay = s.replay := rfl
@[simp] theorem updPanel_line (s : State) (f : PanelUnit → PanelUnit) :
    (s.updPanel f).line = s.line := rfl
@[simp] theorem updPanel_ends (s : State) (f : PanelUnit → PanelUnit) :
    (s.updPanel f).ends = s.ends := rfl
@[simp] theorem updPanel_switch (s : State) (f : PanelUnit → PanelUnit) :
    (s.updPanel f).switch = s.switch := rfl
@[simp] theorem updPanel_integrity (s : State) (f : PanelUnit → PanelUnit) :
    (s.updPanel f).integrity = s.integrity := rfl
@[simp] theorem updPanel_records (s : State) (f : PanelUnit → PanelUnit) :
    (s.updPanel f).records = s.records := rfl
@[simp] theorem updPanel_panel (s : State) (f : PanelUnit → PanelUnit) :
    (s.updPanel f).panel = f s.panel := rfl
@[simp] theorem updPanel_latches (s : State) (f : PanelUnit → PanelUnit) :
    (s.updPanel f).latches = s.latches := rfl
@[simp] theorem updPanel_scanned (s : State) (f : PanelUnit → PanelUnit) :
    (s.updPanel f).scanned = s.scanned := rfl
@[simp] theorem updPanel_scanAt (s : State) (f : PanelUnit → PanelUnit) :
    (s.updPanel f).scanAt = s.scanAt := rfl
@[simp] theorem updPanel_tickAt (s : State) (f : PanelUnit → PanelUnit) :
    (s.updPanel f).tickAt = s.tickAt := rfl

/-! ### updSwitch -/

@[simp] theorem updSwitch_pending (s : State) (f : SwitchRec → SwitchRec) :
    (s.updSwitch f).pending = s.pending := rfl
@[simp] theorem updSwitch_clock (s : State) (f : SwitchRec → SwitchRec) :
    (s.updSwitch f).clock = s.clock := rfl
@[simp] theorem updSwitch_power (s : State) (f : SwitchRec → SwitchRec) :
    (s.updSwitch f).power = s.power := rfl
@[simp] theorem updSwitch_service (s : State) (f : SwitchRec → SwitchRec) :
    (s.updSwitch f).service = s.service := rfl
@[simp] theorem updSwitch_hasConfig (s : State) (f : SwitchRec → SwitchRec) :
    (s.updSwitch f).hasConfig = s.hasConfig := rfl
@[simp] theorem updSwitch_cfg (s : State) (f : SwitchRec → SwitchRec) :
    (s.updSwitch f).cfg = s.cfg := rfl
@[simp] theorem updSwitch_channels (s : State) (f : SwitchRec → SwitchRec) :
    (s.updSwitch f).channels = s.channels := rfl
@[simp] theorem updSwitch_sampledAt (s : State) (f : SwitchRec → SwitchRec) :
    (s.updSwitch f).sampledAt = s.sampledAt := rfl
@[simp] theorem updSwitch_levers (s : State) (f : SwitchRec → SwitchRec) :
    (s.updSwitch f).levers = s.levers := rfl
@[simp] theorem updSwitch_collars (s : State) (f : SwitchRec → SwitchRec) :
    (s.updSwitch f).collars = s.collars := rfl
@[simp] theorem updSwitch_timers (s : State) (f : SwitchRec → SwitchRec) :
    (s.updSwitch f).timers = s.timers := rfl
@[simp] theorem updSwitch_outputs (s : State) (f : SwitchRec → SwitchRec) :
    (s.updSwitch f).outputs = s.outputs := rfl
@[simp] theorem updSwitch_lanes (s : State) (f : SwitchRec → SwitchRec) :
    (s.updSwitch f).lanes = s.lanes := rfl
@[simp] theorem updSwitch_judged (s : State) (f : SwitchRec → SwitchRec) :
    (s.updSwitch f).judged = s.judged := rfl
@[simp] theorem updSwitch_laneErrA (s : State) (f : SwitchRec → SwitchRec) :
    (s.updSwitch f).laneErrA = s.laneErrA := rfl
@[simp] theorem updSwitch_laneErrB (s : State) (f : SwitchRec → SwitchRec) :
    (s.updSwitch f).laneErrB = s.laneErrB := rfl
@[simp] theorem updSwitch_bells (s : State) (f : SwitchRec → SwitchRec) :
    (s.updSwitch f).bells = s.bells := rfl
@[simp] theorem updSwitch_replay (s : State) (f : SwitchRec → SwitchRec) :
    (s.updSwitch f).replay = s.replay := rfl
@[simp] theorem updSwitch_line (s : State) (f : SwitchRec → SwitchRec) :
    (s.updSwitch f).line = s.line := rfl
@[simp] theorem updSwitch_ends (s : State) (f : SwitchRec → SwitchRec) :
    (s.updSwitch f).ends = s.ends := rfl
@[simp] theorem updSwitch_switch (s : State) (f : SwitchRec → SwitchRec) :
    (s.updSwitch f).switch = f s.switch := rfl
@[simp] theorem updSwitch_integrity (s : State) (f : SwitchRec → SwitchRec) :
    (s.updSwitch f).integrity = s.integrity := rfl
@[simp] theorem updSwitch_records (s : State) (f : SwitchRec → SwitchRec) :
    (s.updSwitch f).records = s.records := rfl
@[simp] theorem updSwitch_panel (s : State) (f : SwitchRec → SwitchRec) :
    (s.updSwitch f).panel = s.panel := rfl
@[simp] theorem updSwitch_latches (s : State) (f : SwitchRec → SwitchRec) :
    (s.updSwitch f).latches = s.latches := rfl
@[simp] theorem updSwitch_scanned (s : State) (f : SwitchRec → SwitchRec) :
    (s.updSwitch f).scanned = s.scanned := rfl
@[simp] theorem updSwitch_scanAt (s : State) (f : SwitchRec → SwitchRec) :
    (s.updSwitch f).scanAt = s.scanAt := rfl
@[simp] theorem updSwitch_tickAt (s : State) (f : SwitchRec → SwitchRec) :
    (s.updSwitch f).tickAt = s.tickAt := rfl

/-! ### notify -/

@[simp] theorem notify_pending (s : State) (k : NoticeKind) (n : Nat) :
    (s.notify k n).pending = s.pending := rfl
@[simp] theorem notify_clock (s : State) (k : NoticeKind) (n : Nat) :
    (s.notify k n).clock = s.clock := rfl
@[simp] theorem notify_power (s : State) (k : NoticeKind) (n : Nat) :
    (s.notify k n).power = s.power := rfl
@[simp] theorem notify_service (s : State) (k : NoticeKind) (n : Nat) :
    (s.notify k n).service = s.service := rfl
@[simp] theorem notify_hasConfig (s : State) (k : NoticeKind) (n : Nat) :
    (s.notify k n).hasConfig = s.hasConfig := rfl
@[simp] theorem notify_cfg (s : State) (k : NoticeKind) (n : Nat) :
    (s.notify k n).cfg = s.cfg := rfl
@[simp] theorem notify_channels (s : State) (k : NoticeKind) (n : Nat) :
    (s.notify k n).channels = s.channels := rfl
@[simp] theorem notify_sampledAt (s : State) (k : NoticeKind) (n : Nat) :
    (s.notify k n).sampledAt = s.sampledAt := rfl
@[simp] theorem notify_levers (s : State) (k : NoticeKind) (n : Nat) :
    (s.notify k n).levers = s.levers := rfl
@[simp] theorem notify_collars (s : State) (k : NoticeKind) (n : Nat) :
    (s.notify k n).collars = s.collars := rfl
@[simp] theorem notify_timers (s : State) (k : NoticeKind) (n : Nat) :
    (s.notify k n).timers = s.timers := rfl
@[simp] theorem notify_outputs (s : State) (k : NoticeKind) (n : Nat) :
    (s.notify k n).outputs = s.outputs := rfl
@[simp] theorem notify_lanes (s : State) (k : NoticeKind) (n : Nat) :
    (s.notify k n).lanes = s.lanes := rfl
@[simp] theorem notify_judged (s : State) (k : NoticeKind) (n : Nat) :
    (s.notify k n).judged = s.judged := rfl
@[simp] theorem notify_laneErrA (s : State) (k : NoticeKind) (n : Nat) :
    (s.notify k n).laneErrA = s.laneErrA := rfl
@[simp] theorem notify_laneErrB (s : State) (k : NoticeKind) (n : Nat) :
    (s.notify k n).laneErrB = s.laneErrB := rfl
@[simp] theorem notify_bells (s : State) (k : NoticeKind) (n : Nat) :
    (s.notify k n).bells = s.bells := rfl
@[simp] theorem notify_replay (s : State) (k : NoticeKind) (n : Nat) :
    (s.notify k n).replay = s.replay := rfl
@[simp] theorem notify_line (s : State) (k : NoticeKind) (n : Nat) :
    (s.notify k n).line = s.line := rfl
@[simp] theorem notify_ends (s : State) (k : NoticeKind) (n : Nat) :
    (s.notify k n).ends = s.ends := rfl
@[simp] theorem notify_switch (s : State) (k : NoticeKind) (n : Nat) :
    (s.notify k n).switch = s.switch := rfl
@[simp] theorem notify_integrity (s : State) (k : NoticeKind) (n : Nat) :
    (s.notify k n).integrity = s.integrity := rfl
@[simp] theorem notify_records (s : State) (k : NoticeKind) (n : Nat) :
    (s.notify k n).records = s.records.notify k n := rfl
@[simp] theorem notify_panel (s : State) (k : NoticeKind) (n : Nat) :
    (s.notify k n).panel = s.panel := rfl
@[simp] theorem notify_latches (s : State) (k : NoticeKind) (n : Nat) :
    (s.notify k n).latches = s.latches := rfl
@[simp] theorem notify_scanned (s : State) (k : NoticeKind) (n : Nat) :
    (s.notify k n).scanned = s.scanned := rfl
@[simp] theorem notify_scanAt (s : State) (k : NoticeKind) (n : Nat) :
    (s.notify k n).scanAt = s.scanAt := rfl
@[simp] theorem notify_tickAt (s : State) (k : NoticeKind) (n : Nat) :
    (s.notify k n).tickAt = s.tickAt := rfl

/-! ### register -/

@[simp] theorem register_pending (s : State) (i : EventInfo) :
    (s.register i).pending = s.pending := rfl
@[simp] theorem register_clock (s : State) (i : EventInfo) :
    (s.register i).clock = s.clock := rfl
@[simp] theorem register_power (s : State) (i : EventInfo) :
    (s.register i).power = s.power := rfl
@[simp] theorem register_service (s : State) (i : EventInfo) :
    (s.register i).service = s.service := rfl
@[simp] theorem register_hasConfig (s : State) (i : EventInfo) :
    (s.register i).hasConfig = s.hasConfig := rfl
@[simp] theorem register_cfg (s : State) (i : EventInfo) :
    (s.register i).cfg = s.cfg := rfl
@[simp] theorem register_channels (s : State) (i : EventInfo) :
    (s.register i).channels = s.channels := rfl
@[simp] theorem register_sampledAt (s : State) (i : EventInfo) :
    (s.register i).sampledAt = s.sampledAt := rfl
@[simp] theorem register_levers (s : State) (i : EventInfo) :
    (s.register i).levers = s.levers := rfl
@[simp] theorem register_collars (s : State) (i : EventInfo) :
    (s.register i).collars = s.collars := rfl
@[simp] theorem register_timers (s : State) (i : EventInfo) :
    (s.register i).timers = s.timers := rfl
@[simp] theorem register_outputs (s : State) (i : EventInfo) :
    (s.register i).outputs = s.outputs := rfl
@[simp] theorem register_lanes (s : State) (i : EventInfo) :
    (s.register i).lanes = s.lanes := rfl
@[simp] theorem register_judged (s : State) (i : EventInfo) :
    (s.register i).judged = s.judged := rfl
@[simp] theorem register_laneErrA (s : State) (i : EventInfo) :
    (s.register i).laneErrA = s.laneErrA := rfl
@[simp] theorem register_laneErrB (s : State) (i : EventInfo) :
    (s.register i).laneErrB = s.laneErrB := rfl
@[simp] theorem register_bells (s : State) (i : EventInfo) :
    (s.register i).bells = s.bells := rfl
@[simp] theorem register_replay (s : State) (i : EventInfo) :
    (s.register i).replay = s.replay := rfl
@[simp] theorem register_line (s : State) (i : EventInfo) :
    (s.register i).line = s.line := rfl
@[simp] theorem register_ends (s : State) (i : EventInfo) :
    (s.register i).ends = s.ends := rfl
@[simp] theorem register_switch (s : State) (i : EventInfo) :
    (s.register i).switch = s.switch := rfl
@[simp] theorem register_integrity (s : State) (i : EventInfo) :
    (s.register i).integrity = s.integrity := rfl
@[simp] theorem register_records (s : State) (i : EventInfo) :
    (s.register i).records = s.records.take i := rfl
@[simp] theorem register_panel (s : State) (i : EventInfo) :
    (s.register i).panel = s.panel := rfl
@[simp] theorem register_latches (s : State) (i : EventInfo) :
    (s.register i).latches = s.latches := rfl
@[simp] theorem register_scanned (s : State) (i : EventInfo) :
    (s.register i).scanned = s.scanned := rfl
@[simp] theorem register_scanAt (s : State) (i : EventInfo) :
    (s.register i).scanAt = s.scanAt := rfl
@[simp] theorem register_tickAt (s : State) (i : EventInfo) :
    (s.register i).tickAt = s.tickAt := rfl

/-! ### withPending -/

@[simp] theorem withPending_pending (s : State) (cs : List Instr) :
    (s.withPending cs).pending = cs := rfl
@[simp] theorem withPending_clock (s : State) (cs : List Instr) :
    (s.withPending cs).clock = s.clock := rfl
@[simp] theorem withPending_power (s : State) (cs : List Instr) :
    (s.withPending cs).power = s.power := rfl
@[simp] theorem withPending_service (s : State) (cs : List Instr) :
    (s.withPending cs).service = s.service := rfl
@[simp] theorem withPending_hasConfig (s : State) (cs : List Instr) :
    (s.withPending cs).hasConfig = s.hasConfig := rfl
@[simp] theorem withPending_cfg (s : State) (cs : List Instr) :
    (s.withPending cs).cfg = s.cfg := rfl
@[simp] theorem withPending_channels (s : State) (cs : List Instr) :
    (s.withPending cs).channels = s.channels := rfl
@[simp] theorem withPending_sampledAt (s : State) (cs : List Instr) :
    (s.withPending cs).sampledAt = s.sampledAt := rfl
@[simp] theorem withPending_levers (s : State) (cs : List Instr) :
    (s.withPending cs).levers = s.levers := rfl
@[simp] theorem withPending_collars (s : State) (cs : List Instr) :
    (s.withPending cs).collars = s.collars := rfl
@[simp] theorem withPending_timers (s : State) (cs : List Instr) :
    (s.withPending cs).timers = s.timers := rfl
@[simp] theorem withPending_outputs (s : State) (cs : List Instr) :
    (s.withPending cs).outputs = s.outputs := rfl
@[simp] theorem withPending_lanes (s : State) (cs : List Instr) :
    (s.withPending cs).lanes = s.lanes := rfl
@[simp] theorem withPending_judged (s : State) (cs : List Instr) :
    (s.withPending cs).judged = s.judged := rfl
@[simp] theorem withPending_laneErrA (s : State) (cs : List Instr) :
    (s.withPending cs).laneErrA = s.laneErrA := rfl
@[simp] theorem withPending_laneErrB (s : State) (cs : List Instr) :
    (s.withPending cs).laneErrB = s.laneErrB := rfl
@[simp] theorem withPending_bells (s : State) (cs : List Instr) :
    (s.withPending cs).bells = s.bells := rfl
@[simp] theorem withPending_replay (s : State) (cs : List Instr) :
    (s.withPending cs).replay = s.replay := rfl
@[simp] theorem withPending_line (s : State) (cs : List Instr) :
    (s.withPending cs).line = s.line := rfl
@[simp] theorem withPending_ends (s : State) (cs : List Instr) :
    (s.withPending cs).ends = s.ends := rfl
@[simp] theorem withPending_switch (s : State) (cs : List Instr) :
    (s.withPending cs).switch = s.switch := rfl
@[simp] theorem withPending_integrity (s : State) (cs : List Instr) :
    (s.withPending cs).integrity = s.integrity := rfl
@[simp] theorem withPending_records (s : State) (cs : List Instr) :
    (s.withPending cs).records = s.records := rfl
@[simp] theorem withPending_panel (s : State) (cs : List Instr) :
    (s.withPending cs).panel = s.panel := rfl
@[simp] theorem withPending_latches (s : State) (cs : List Instr) :
    (s.withPending cs).latches = s.latches := rfl
@[simp] theorem withPending_scanned (s : State) (cs : List Instr) :
    (s.withPending cs).scanned = s.scanned := rfl
@[simp] theorem withPending_scanAt (s : State) (cs : List Instr) :
    (s.withPending cs).scanAt = s.scanAt := rfl
@[simp] theorem withPending_tickAt (s : State) (cs : List Instr) :
    (s.withPending cs).tickAt = s.tickAt := rfl

end Machine

end Sys2Proof
end

