-- ==== Sys2Proof/Laws/Frames.lean ====
section
/-! SUPPORT. What the shared operations leave alone: each operation of the section unit, the line
unit's queue, switching, the bells and the closing of an event keeps `State.rest`, where it verifies
records while no damage waits to be found. What an event that finds no damage comes to is said once, for
its verifications (`verify_calm`), its shape (`guarded_calm`) and its close (`closeEvent_calm`), and so is what
a judgement of the lanes and of the outputs makes (`judgeLanes_right`, `output_commandOutputs`). -/

namespace Sys2Proof.Machine

open Sys2Proof

/-- A change of one element that a view of the elements does not show, seen through the collection. -/
theorem map_upd {α β : Type} {n : Nat} (v : Vector α n) (i : Fin n) (f : α → α) (g : α → β)
    (h : ∀ x, g (f x) = g x) : (upd v i f).map g = v.map g := by
  apply look_ext
  intro j
  simp only [look_map, look_upd]
  split <;> simp [h]

/-- A property that each change keeps is kept by the changes made in turn. -/
theorem each_keeps {α β : Type} (p : State → β) (xs : List α) (f : State → α → State)
    (h : ∀ s x, p (f s x) = p s) (s : State) : p (s.each xs f) = p s := by
  unfold State.each
  induction xs generalizing s with
  | nil => rfl
  | cons x xs ih => simp only [List.foldl_cons, ih, h]

/-! Verification where no damage waits to be found (R137) -/

section Calm
variable {s t : State}

theorem hits_calm (h : s.Calm) (rs : List RecordId) : s.hits rs = [] := by
  unfold State.hits; rw [h]; rfl
theorem verify_calm (h : s.Calm) (op : Operation) (rs : List RecordId) : s.verify op rs = s := by
  unfold State.verify; rw [hits_calm h]; rfl
theorem guarded_calm (h : s.Calm) (op : Operation) (rs : List RecordId) (act : State → State)
    (close : State → State → State) : s.guarded op rs act close = act s := by
  unfold State.guarded; rw [hits_calm h]; rfl
theorem quietly_calm (h : s.Calm) (op : Operation) (rs : List RecordId) (act : State → State) :
    s.quietly op rs act = act s := guarded_calm h op rs act _
/-- A command's own rule, its reads finding nothing: it is judged on the records as they stand, save in
LOCKDOWN. -/
theorem verified_calm (h : s.Calm) (hl : s.service ≠ .lockdown) (op : Operation) (rs : List RecordId)
    (judge : State → Judged) :
    s.verified op rs judge =
      (if (judge s).changed then (judge s).state.react s else (judge s).state).respond
        (judge s).answer := by
  have hb : (s.service == Service.lockdown) = false := beq_false_of_ne hl
  unfold State.verified
  simp only [verify_calm h, hits_calm h, hb, Bool.false_eq_true, ↓reduceIte, List.isEmpty_nil,
    Bool.not_true, Bool.or_false]
theorem tryVerify_calm (h : s.Calm) (op : Operation) (gs : List Nat) (ks : List CodeNo) :
    s.tryVerify op gs ks = s := by
  induction ks with
  | nil => rfl
  | cons k ks ih => unfold State.tryVerify; simp only [verify_calm h, ih, ite_self]
theorem matchVerify_calm (h : s.Calm) (op : Operation) (gs : List Nat) (o : Bool) :
    s.matchVerify op gs o = s := by
  unfold State.matchVerify; simp only [tryVerify_calm h, ite_self]

theorem codeVerify_calm (h : s.Calm) (e : EndNo) (m : Meaning) : s.codeVerify e m = s := by
  simp only [State.codeVerify, verify_calm h]
theorem bellVerify_calm (h : s.Calm) (e : EndNo) (m : BellMsg) : s.bellVerify e m = s := by
  simp only [State.bellVerify, matchVerify_calm h, verify_calm h]
theorem fittedVerify_calm (h : s.Calm) (e : EndNo) : s.fittedVerify e = s := verify_calm h _ _

/-- The integrity unit's records are among those that the rest holds. -/
theorem integrity_of_rest (h : t.rest = s.rest) : t.integrity = s.integrity :=
  congrArg RestFields.integrity h
theorem calm_of_rest (h : t.rest = s.rest) (hs : s.Calm) : t.Calm := by
  simpa only [State.Calm, integrity_of_rest h] using hs
/-- Changes made in turn, each of which keeps the rest of a calm state, keep it. -/
theorem each_rest {α : Type} (xs : List α) (f : State → α → State)
    (hf : ∀ s x, s.Calm → (f s x).rest = s.rest) (h : s.Calm) : (s.each xs f).rest = s.rest := by
  unfold State.each
  induction xs generalizing s with
  | nil => rfl
  | cons x xs ih => rw [List.foldl_cons, ih (calm_of_rest (hf s x h) h), hf s x h]

end Calm

section Rest
variable (s : State)

theorem rest_updLever (l : LeverNo) (f : Lever → Lever) (h : ∀ v, (f v).kept = v.kept) :
    (s.updLever l f).rest = s.rest := by
  simp only [State.rest, State.updLever, map_upd _ _ _ _ h]
theorem rest_updBell (e : EndNo) (f : BellEnd → BellEnd) (h : ∀ b, (f b).kept = b.kept) :
    (s.updBell e f).rest = s.rest := by
  simp only [State.rest, State.updBell, map_upd _ _ _ _ h]
theorem rest_updEnd (e : EndNo) (f : EndDyn → EndDyn) (h : ∀ d, (f d).comm = d.comm) :
    (s.updEnd e f).rest = s.rest := by
  simp only [State.rest, State.updEnd, map_upd _ _ _ _ h]
theorem rest_updLine (f : LineUnit → LineUnit) (h : (f s.line).kept = s.line.kept) :
    (s.updLine f).rest = s.rest := by
  simp only [State.rest, State.updLine, h]
theorem rest_updLineEnd (e : EndNo) (f : LineEnd → LineEnd) (h : ∀ x, (f x).kept = x.kept) :
    (s.updLineEnd e f).rest = s.rest := by
  unfold State.updLineEnd
  exact rest_updLine s _ (by simp only [LineUnit.kept, map_upd _ _ _ _ h])
theorem rest_updSwitch (f : SwitchRec → SwitchRec) (h : (f s.switch).keyIn = s.switch.keyIn) :
    (s.updSwitch f).rest = s.rest := by
  simp only [State.rest, State.updSwitch, h]
@[simp] theorem rest_updView (e : EndNo) (f : View → View) : (s.updView e f).rest = s.rest :=
  rest_updEnd s e _ (fun _ => rfl)
@[simp] theorem rest_notify (k : NoticeKind) (n : Nat) : (s.notify k n).rest = s.rest := by
  simp only [State.rest, State.notify, RecordUnit.notify]; split <;> rfl
@[simp] theorem take_time (r : RecordUnit) (i : EventInfo) : (r.take i).time = r.time := by
  simp only [RecordUnit.take, RecordUnit.notify]; (repeat' split) <;> rfl
@[simp] theorem take_timeValid (r : RecordUnit) (i : EventInfo) :
    (r.take i).timeValid = r.timeValid := by
  simp only [RecordUnit.take, RecordUnit.notify]; (repeat' split) <;> rfl
@[simp] theorem rest_register (i : EventInfo) : (s.register i).rest = s.rest := by
  simp only [State.rest, State.register, take_time, take_timeValid]
@[simp] theorem rest_updDemand (e : EndNo) (f : Demand → Demand) : (s.updDemand e f).rest = s.rest :=
  rest_updEnd s e _ (fun _ => rfl)
@[simp] theorem rest_updProof (e : EndNo) (f : Proof → Proof) : (s.updProof e f).rest = s.rest :=
  rest_updView s e _
@[simp] theorem rest_setRelease (e : EndNo) (r : Release) : (s.setRelease e r).rest = s.rest :=
  rest_updEnd s e _ (fun _ => rfl)
@[simp] theorem rest_enqueue (t : TxEntry) : (s.enqueue t).rest = s.rest :=
  rest_updLine s _ rfl
@[simp] theorem rest_consumeOffer (e : EndNo) : (s.consumeOffer e).rest = s.rest :=
  rest_updBell s e _ (fun _ => rfl)
@[simp] theorem rest_putFields (e : EndNo) (c : EndCfg) (v : View) :
    (s.putFields e c v).rest = s.rest := by
  unfold State.putFields
  dsimp only
  rw [rest_updBell, rest_updView]
  exact fun _ => rfl
@[simp] theorem rest_judgeProof (e : EndNo) (c : EndCfg) (v : View) :
    (s.judgeProof e c v).rest = s.rest := rest_updView s e _
@[simp] theorem rest_putView (e : EndNo) (c : EndCfg) (v : View) :
    (s.putView e c v).rest = s.rest := by unfold State.putView; simp
@[simp] theorem rest_registerRefused (c : EndCfg) (r : Reason) (a : Bool) :
    (s.registerRefused c r a).rest = s.rest := rest_register s _
@[simp] theorem rest_clearLanes : s.clearLanes.rest = s.rest := rfl
theorem kept_latched (b : Bool) (v : Lever) :
    (if b = true then { v with latch := true } else v).kept = v.kept := by cases b <;> rfl
theorem kept_latchDrops : s.latchDrops.levers.map Lever.kept = s.levers.map Lever.kept := by
  apply look_ext
  intro l
  simp only [State.latchDrops, look_map, look_build, State.lever]
  split
  · exact kept_latched _ _
  · rfl
theorem kept_commands (f : OutputNo → Bool) :
    (build 48 fun n => { s.output n with command := f n }).map Output.kept =
      s.outputs.map Output.kept := by
  apply look_ext
  intro n
  simp only [look_map, look_build, State.output, Output.kept]
@[simp] theorem rest_commandOutputs : s.commandOutputs.rest = s.rest := by
  have h := kept_commands s.latchDrops s.latchDrops.commandOf
  have h' := kept_latchDrops s
  simp only [State.commandOutputs, State.rest, h, h']
  simp only [State.latchDrops]

/-- What a judgement of the outputs makes of a lever: its replacement latch alone changes, and where a control
commanded energized drops with the lever at REVERSE it is set (R31). -/
theorem lever_commandOutputs (l : LeverNo) : s.commandOutputs.lever l =
    match (s.leverCfg l).controlOutput with
    | some n =>
      if ((s.output n).command && !s.controlCommand l && (s.lever l).position == .reverse) = true then
        { s.lever l with latch := true }
      else s.lever l
    | none => s.lever l := look_build _ l
theorem latch_commandOutputs (l : LeverNo) (n : OutputNo) (hn : (s.leverCfg l).controlOutput = some n)
    (ho : (s.output n).command = true) (hr : (s.lever l).position = .reverse)
    (hc : s.controlCommand l = false) : (s.commandOutputs.lever l).latch = true := by
  simp [lever_commandOutputs, hn, ho, hr, hc]
/-- What it makes of an output: its command alone, given by the records with the latches of drops set. -/
theorem output_commandOutputs (n : OutputNo) :
    s.commandOutputs.output n = { s.output n with command := s.latchDrops.commandOf n } := by
  simp only [State.commandOutputs, State.latchDrops, State.output, look_build]
theorem commandOf_unnamed (n : OutputNo) (h : s.cfg.leverOf n = none) : s.commandOf n = false := by
  simp only [State.commandOf, h]
/-- What the judgement of the lanes makes of an expression of the table: the combined result is what it comes to,
where neither lane answers wrongly (R52). -/
theorem judgeLanes_right (found : List RecordId) (x : ExprNo) (hj : s.judgesNow = true)
    (hx : x.val < s.cfg.exprs.length) (ha : s.laneErrA.getLsbD x.val = false)
    (hb : s.laneErrB.getLsbD x.val = false) :
    (look (s.judgeLanes found).lanes x).laneA = (s.asPoisoned found).judge x ∧
      (look (s.judgeLanes found).lanes x).laneB = (s.asPoisoned found).judge x := by
  have hl : ¬ (s.asPoisoned found).cfg.exprs.length ≤ x.val := by
    simpa [State.asPoisoned, State.updIntegrity] using hx
  have ha' : (s.asPoisoned found).laneErrA.getLsbD x.val = false := ha
  have hb' : (s.asPoisoned found).laneErrB.getLsbD x.val = false := hb
  simp only [State.judgeLanes, hj, if_true, look_build, State.judgedLanes, hl, if_false, ha', hb',
    Lanes.judged, Bool.bne_false, beq_self_eq_true, and_self]

@[simp] theorem rest_registerChange (c : EndCfg) (old new : View) (auto : Bool) :
    (s.registerChange c old new auto).rest = s.rest := by
  unfold State.registerChange; (repeat' split) <;> simp
@[simp] theorem rest_registerView (c : EndCfg) (old new : View) (auto : Bool) :
    (s.registerView c old new auto).rest = s.rest := by
  unfold State.registerView; dsimp only; (repeat' split) <;> simp
@[simp] theorem rest_changeView (e : EndNo) (c : EndCfg) (v : View) (auto : Bool) :
    (s.changeView e c v auto).rest = s.rest := by unfold State.changeView; simp
@[simp] theorem rest_refuseMove (e : EndNo) (c : EndCfg) (p : CommPos) (r : Reason) :
    (s.refuseMove e c p r).rest = s.rest := by unfold State.refuseMove; simp
@[simp] theorem rest_followRelease (e : EndNo) : (s.followRelease e).rest = s.rest := by
  unfold State.followRelease; (repeat' split) <;> simp
@[simp] theorem rest_clearPairLatches (e : EndNo) : (s.clearPairLatches e).rest = s.rest := by
  unfold State.clearPairLatches
  (repeat' split) <;> first
    | exact each_keeps State.rest _ _
        (fun s x => by
          split
          · exact rest_updLever _ _ _ fun _ => rfl
          · rfl) s
    | rfl
@[simp] theorem rest_consume (e : EndNo) (n : Nat) : (s.consume e n).rest = s.rest := by
  unfold State.consume; simp
@[simp] theorem rest_takeAcceptance (e : EndNo) (c : EndCfg) :
    (s.takeAcceptance e c).rest = s.rest := by unfold State.takeAcceptance; simp
@[simp] theorem rest_demandRefused (e a : EndNo) (r : Reason) :
    (s.demandRefused e a r).rest = s.rest := by
  unfold State.demandRefused; (repeat' split) <;> simp [*]
@[simp] theorem rest_demandAccepted (e : EndNo) (n : Nat) :
    (s.demandAccepted e n).rest = s.rest := rest_updDemand s e _
@[simp] theorem rest_followDemand (e : EndNo) : (s.followDemand e).rest = s.rest := by
  unfold State.followDemand; dsimp only; (repeat' split) <;> simp
@[simp] theorem rest_followViews : s.followViews.rest = s.rest := by
  unfold State.followViews
  rw [each_keeps State.rest _ _ (fun s e => rest_followDemand s e),
    each_keeps State.rest _ _ (fun s e => rest_followRelease s e)]
@[simp] theorem rest_autoArrivalRefused (e : EndNo) (c : EndCfg) (b : Bool) (r : Reason) :
    (s.autoArrivalRefused e c b r).rest = s.rest := by
  unfold State.autoArrivalRefused; (repeat' split) <;> simp
@[simp] theorem rest_requestRefused (e : EndNo) (c : EndCfg) (p : Request) (r : Reason) :
    (s.requestRefused e c p r).rest = s.rest := by
  unfold State.requestRefused; (repeat' split) <;> simp
@[simp] theorem rest_settle (e : EndNo) (c : EndCfg) (o : Outcome) :
    (s.settle e c o).rest = s.rest := by
  unfold State.settle; dsimp only; (repeat' split) <;> simp
@[simp] theorem rest_lapse (e : EndNo) : (s.lapse e).rest = s.rest := by
  unfold State.lapse; (repeat' split) <;> simp
@[simp] theorem rest_requestLost (t : TxEntry) : (s.requestLost t).rest = s.rest := by
  unfold State.requestLost; (repeat' split) <;> simp
@[simp] theorem rest_obstruct (e : EndNo) : (s.obstruct e).rest = s.rest := by
  unfold State.obstruct; dsimp only; (repeat' split) <;> simp
@[simp] theorem rest_ownerRestarted (e : EndNo) (c : EndCfg) :
    (s.ownerRestarted e c).rest = s.rest := by
  unfold State.ownerRestarted; dsimp only
  rw [rest_updBell _ _ _ (by intro _; rfl)]
  simp
@[simp] theorem rest_farRestarted (e : EndNo) (c : EndCfg) :
    (s.farRestarted e c).rest = s.rest := by
  unfold State.farRestarted; dsimp only; (repeat' split) <;> simp
@[simp] theorem rest_autoOccupy (s0 : State) (e : EndNo) : (s.autoOccupy s0 e).rest = s.rest := by
  unfold State.autoOccupy; (repeat' split) <;> simp

/-! Switching -/

@[simp] theorem rest_freeKeys : s.freeKeys.rest = s.rest := by
  unfold State.freeKeys
  exact each_keeps State.rest _ _ (fun s e => rest_updBell s e _ (fun b => by split <;> rfl)) s
@[simp] theorem rest_ignoreKeys : s.ignoreKeys.rest = s.rest := by
  unfold State.ignoreKeys
  exact each_keeps State.rest _ _ (fun s e => rest_updBell s e _ (fun b => by rfl)) s
@[simp] theorem rest_endWaits : s.endWaits.rest = s.rest := by
  unfold State.endWaits; exact each_keeps State.rest _ _ (fun s e => by simp) s
@[simp] theorem rest_goOut : s.goOut.rest = s.rest := by
  unfold State.goOut; simp [rest_updSwitch]
@[simp] theorem rest_comeIn (c : SwitchCause) : (s.comeIn c).rest = s.rest := by
  unfold State.comeIn; simp [rest_updSwitch, SwitchRec.latch]
@[simp] theorem rest_markKey : s.markKey.rest = s.rest :=
  rest_updSwitch s _ rfl
@[simp] theorem rest_forceIn (c : SwitchCause) : (s.forceIn c).rest = s.rest := by
  unfold State.forceIn; (repeat' split) <;> simp [rest_updSwitch, SwitchRec.latch]
@[simp] theorem rest_judgeSwitch : s.judgeSwitch.rest = s.rest := by
  unfold State.judgeSwitch; (repeat' split) <;> simp

/-! The line unit's offers -/

theorem kept_offerCoalescing (u : LineUnit) (x : TxEntry) : (u.offerCoalescing x).kept = u.kept := by
  unfold LineUnit.offerCoalescing
  split
  · simp only [LineUnit.kept, Option.map_map]
    congr 1
    cases u.sending with
    | none => rfl
    | some y => simp only [Option.map_some, Function.comp]; split <;> rfl
  · rfl
@[simp] theorem rest_offerSectionState (e : EndNo) : (s.offerSectionState e).rest = s.rest := by
  unfold State.offerSectionState
  (repeat' split) <;>
    first
    | rfl
    | (rw [rest_updLineEnd _ _ _ (by intro _; rfl)]
       try exact rest_updLine s _ (kept_offerCoalescing _ _))
@[simp] theorem rest_offerEndReport : s.offerEndReport.rest = s.rest := by
  unfold State.offerEndReport
  (repeat' split) <;> first
    | rfl
    | (rw [rest_updLine _ _ rfl]; try exact rest_updLine s _ (kept_offerCoalescing _ _))

/-! What builds single telegrams, while no damage waits to be found -/

variable {s} in
theorem rest_makeRequest (e : EndNo) (c : EndCfg) (k : ReqKind) (n : Nat) (o : Origin)
    (refused : State → State) (hr : ∀ t, (refused t).rest = t.rest) (h : s.Calm) :
    (s.makeRequest e c k n o refused).rest = s.rest := by
  unfold State.makeRequest; simp only [verify_calm h]; (repeat' split) <;> simp [hr]
variable {s} in
theorem rest_acceptFor (e a : EndNo) (c : EndCfg) (h : s.Calm) :
    (s.acceptFor e a c).rest = s.rest := by
  unfold State.acceptFor
  (repeat' split) <;> first
    | simp
    | exact rest_makeRequest _ _ _ _ _ _ (fun t => rest_demandRefused t e a _) h
variable {s} in
theorem rest_attemptAcceptance (e : EndNo) (h : s.Calm) :
    (s.attemptAcceptance e).rest = s.rest := by
  have hd (f) : (s.updDemand e f).Calm := calm_of_rest (rest_updDemand s e f) h
  unfold State.attemptAcceptance
  (repeat' split) <;> first
    | rfl
    | (rw [verify_calm (hd _), rest_acceptFor _ _ _ (hd _)]; simp)
variable {s} in
theorem rest_createDemand (e : EndNo) (h : s.Calm) : (s.createDemand e).rest = s.rest := by
  have hd : (s.updEnd e fun d =>
      { d with demand := some ⟨(s.release e).acc, .waiting, 0, none, none⟩ }).rest = s.rest :=
    rest_updEnd s e _ fun _ => rfl
  unfold State.createDemand
  rw [rest_attemptAcceptance _ (calm_of_rest hd h), hd]
variable {s} in
theorem rest_grantRelease (e : EndNo) (c : EndCfg) (h : s.Calm) :
    (s.grantRelease e c).rest = s.rest := by
  have hc (n) : (s.consume e n).Calm := calm_of_rest (rest_consume s e n) h
  unfold State.grantRelease; dsimp only
  (repeat' split) <;> simp [rest_createDemand _ (hc _)]
variable {s} in
theorem rest_judgeRelease (e : EndNo) (c : EndCfg) (v : View) (h : s.Calm) :
    (s.judgeRelease e c v).rest = s.rest := by
  have hf : (s.followRelease e).Calm := calm_of_rest (rest_followRelease s e) h
  unfold State.judgeRelease
  simp only [verify_calm h, verify_calm hf]
  (repeat' split) <;> simp [rest_grantRelease _ _ hf]
variable {s} in
theorem rest_attemptCancel (e : EndNo) (c : EndCfg) (h : s.Calm) :
    (s.attemptCancel e c).rest = s.rest := by
  unfold State.attemptCancel; dsimp only
  (repeat' split) <;> first
    | rfl
    | exact rest_updView s e _
    | rw [rest_makeRequest _ _ _ _ _ _ (fun t => rest_updView t e _)
        (calm_of_rest (rest_updView s e _) h), rest_updView]
variable {s} in
theorem rest_giveArrival (e : EndNo) (c : EndCfg) (h : s.Calm) :
    (s.giveArrival e c).rest = s.rest := by
  unfold State.giveArrival; dsimp only
  (repeat' split) <;> first
    | rfl
    | (rw [rest_makeRequest _ _ _ _ _ _ (fun t => rest_autoArrivalRefused t e c _ _)
        (calm_of_rest (rest_updProof s e _) h), rest_updProof])
    | simp
variable {s} in
theorem rest_attemptArrival (e : EndNo) (c : EndCfg) (h : s.Calm) :
    (s.attemptArrival e c).rest = s.rest := by
  unfold State.attemptArrival; rw [verify_calm h]
  split
  · exact rest_giveArrival e c h
  · rfl
variable {s} in
theorem rest_completeProof (e : EndNo) (c : EndCfg) (h : s.Calm) :
    (s.completeProof e c).rest = s.rest := by
  unfold State.completeProof
  rw [rest_attemptArrival _ _ (calm_of_rest (rest_updProof s e _) h), rest_updProof]
variable {s} in
theorem rest_afterSettled (e : EndNo) (c : EndCfg) (o : Origin) (h : s.Calm) :
    (s.afterSettled e c o).rest = s.rest := by
  unfold State.afterSettled; dsimp only
  (repeat' split) <;> simp [rest_attemptCancel _ _ h, rest_attemptArrival _ _ h]
variable {s} in
theorem rest_followProof (s0 : State) (e : EndNo) (h : s.Calm) :
    (s.followProof s0 e).rest = s.rest := by
  have hu (f) : (s.updProof e f).Calm := calm_of_rest (rest_updProof s e f) h
  have hn (f) : ((s.updProof e f).notify .provingBroken (endSubject e)).Calm :=
    calm_of_rest (rest_notify _ _ _) (hu f)
  unfold State.followProof; dsimp only
  (repeat' split) <;> simp [rest_completeProof _ _ (hu _), rest_completeProof _ _ (hn _)]

/-! Closing an event -/

@[simp] theorem rest_judgeLanes (found : List RecordId) : (s.judgeLanes found).rest = s.rest := by
  unfold State.judgeLanes; split <;> simp only [State.rest]
@[simp] theorem rest_evaluate (found : List RecordId) : (s.evaluate found).rest = s.rest := by
  unfold State.evaluate; simp
@[simp] theorem rest_judgeProving (b : State) : (s.judgeProving b).rest = s.rest := by
  unfold State.judgeProving; split <;> simp only [State.rest]
variable {s} in
theorem conditionVerify_calm (b : State) (h : s.Calm) : s.conditionVerify b = s := by
  unfold State.conditionVerify; rw [verify_calm h, verify_calm h, ite_self]
variable {s} in
theorem provingVerify_calm (b : State) (h : s.Calm) : s.provingVerify b = s := by
  unfold State.provingVerify; simp only [conditionVerify_calm b h, verify_calm h]
variable {s} in
theorem rest_settledReactions (b : State) (h : s.Calm) : (s.settledReactions b).rest = s.rest := by
  unfold State.settledReactions
  refine each_rest _ _ (fun s e h => ?_) h
  (repeat' split) <;> simp [rest_afterSettled _ _ _ h]
variable {s} in
theorem rest_trackReactions (b : State) (h : s.Calm) : (s.trackReactions b).rest = s.rest := by
  unfold State.trackReactions
  rw [each_keeps State.rest _ _ (fun s e => rest_autoOccupy s b e),
    each_rest _ _ (fun s e h => rest_followProof b e h) h]
variable {s} in
theorem followVerify_calm (b : State) (h : s.Calm) : s.followVerify b = s := verify_calm h _ _
variable {s} in
theorem rest_answerChanges (b : State) (h : s.Calm) : (s.answerChanges b).rest = s.rest := by
  unfold State.answerChanges
  simp only [followVerify_calm b h]
  split
  · rw [rest_trackReactions _ (calm_of_rest (rest_settledReactions b h) h), rest_settledReactions b h]
  · rfl
variable {s} in
/-- The releases and demands of a working station follow its views, where no damage waits to be found. -/
theorem followChanges_calm (b : State) (h : s.Calm) :
    s.followChanges b = if s.working then s.followViews else s := by
  unfold State.followChanges; rw [verify_calm h]
variable {s} in
theorem rest_followChanges (b : State) (h : s.Calm) : (s.followChanges b).rest = s.rest := by
  rw [followChanges_calm b h]; split <;> simp
variable {s} in
theorem switchVerify_calm (b : State) (h : s.Calm) : s.switchVerify b = s := by
  unfold State.switchVerify; simp only [verify_calm h]
variable {s} in
theorem rest_judgeStation (b : State) (h : s.Calm) : (s.judgeStation b).rest = s.rest := by
  have hf := calm_of_rest (rest_followChanges b h) h
  unfold State.judgeStation
  simp only [switchVerify_calm b hf, provingVerify_calm b hf, rest_judgeProving]
  split <;> simp [rest_followChanges b h]
@[simp] theorem rest_offerChanges (s0 : State) : (s.offerChanges s0).rest = s.rest := by
  unfold State.offerChanges
  dsimp only
  split <;> simp [each_keeps State.rest _ _ (fun s e => rest_offerSectionState s e)]

variable {s} in
/-- The blocks' answers to an event that began at `s0`, and the judgements of the station. -/
theorem rest_answered (s0 : State) (h : s.Calm) :
    ((s.answerChanges s0).judgeStation s0).rest = s.rest := by
  rw [rest_judgeStation s0 (calm_of_rest (rest_answerChanges s0 h) h), rest_answerChanges s0 h]

variable {s} in
/-- The close of an event in which no damage waits to be found. -/
theorem closeEvent_calm (s0 : State) (all : Bool) (found : List RecordId) (h : s.Calm) :
    s.closeEvent s0 all found =
      (((s.answerChanges s0).judgeStation s0).evaluate found).offerChanges s0 := by
  have ht : ((s.answerChanges s0).judgeStation s0).Calm := calm_of_rest (rest_answered s0 h) h
  have he : ((s.answerChanges s0).judgeStation s0).integrity.damaged = s.integrity.damaged := by
    rw [ht, h]
  unfold State.closeEvent
  simp only [closeRounds, verify_calm ht, he, beq_self_eq_true, ↓reduceIte, hits_calm ht,
    List.append_nil]

variable {s} in
/-- Closing an event in which no damage waits to be found changes nothing but the fields that
`State.rest` sets aside. -/
theorem rest_closeEvent (s0 : State) (all : Bool) (found : List RecordId) (h : s.Calm) :
    (s.closeEvent s0 all found).rest = s.rest := by
  rw [closeEvent_calm s0 all found h, rest_offerChanges, rest_evaluate, rest_answered s0 h]
variable {s} in
theorem rest_react (s0 : State) (h : s.Calm) : (s.react s0).rest = s.rest :=
  rest_closeEvent s0 false [] h

end Rest

end Sys2Proof.Machine
end

