-- ==== Sys2Proof/Laws/Kept.lean ====
section
/-! SUPPORT. Laws of the transmit queue and of the record unit that the shared operations keep: one
scheme for every law that speaks of the queue and the records alone, and one lemma for each operation
that hands anything to either. -/

namespace Sys2Proof.Machine

open Sys2Proof

/-- A law of the transmit queue and the record unit, kept by each way in which they change. -/
structure Law where
  holdsOf : List TxEntry → RecordUnit → Prop
  notify : ∀ {q r} (k n), holdsOf q r → holdsOf q (r.notify k n)
  take : ∀ {q r} (i), holdsOf q r → holdsOf q (r.take i)
  single : ∀ {u : LineUnit} {r t}, holdsOf u.queue r → t.body.coalesces = false → u.singles < 9 →
    holdsOf (u.queue ++ [t]) r
  coalescing : ∀ {u : LineUnit} {r t}, holdsOf u.queue r → t.keyed → t.body.coalesces = true →
    holdsOf (u.offerCoalescing t).queue r
  tail : ∀ {q r}, holdsOf q r → holdsOf q.tail r
  nil : ∀ {q r}, holdsOf q r → holdsOf [] r
  noticesTail : ∀ {q r} (b), holdsOf q r →
    holdsOf q { r with notices := r.notices.tail, overflow := b }
  noticesNil : ∀ {q r}, holdsOf q r → holdsOf q { r with notices := [], overflow := false }
  registerTail : ∀ {q r}, holdsOf q r →
    holdsOf q { r with register := r.register.tail, overwrite := false }
  timeOfDay : ∀ {q r} (n b), holdsOf q r → holdsOf q { r with time := n, timeValid := b }
  reset : holdsOf State.reset.line.queue State.reset.records

/-- A state has the law. -/
def Law.holds (I : Law) (s : State) : Prop := I.holdsOf s.line.queue s.records

/-- A law that each change keeps is kept by the changes made in turn. -/
theorem each_holds {α : Type} (p : State → Prop) (xs : List α) (f : State → α → State)
    (h : ∀ s x, p s → p (f s x)) {s : State} (hs : p s) : p (s.each xs f) := by
  unfold State.each
  induction xs generalizing s with
  | nil => exact hs
  | cons x xs ih => exact ih (h s x hs)

section
variable (I : Law) {s : State}

theorem holds_congr {s t : State} (hq : t.line.queue = s.line.queue) (hr : t.records = s.records)
    (h : I.holds s) : I.holds t := by
  unfold Law.holds at *; rw [hq, hr]; exact h

@[simp] theorem holds_updLever (l f) (h : I.holds s) : I.holds (s.updLever l f) := h
@[simp] theorem holds_updBell (e f) (h : I.holds s) : I.holds (s.updBell e f) := h
@[simp] theorem holds_updEnd (e f) (h : I.holds s) : I.holds (s.updEnd e f) := h
@[simp] theorem holds_updView (e f) (h : I.holds s) : I.holds (s.updView e f) := h
@[simp] theorem holds_updComm (e f) (h : I.holds s) : I.holds (s.updComm e f) := h
@[simp] theorem holds_updProof (e f) (h : I.holds s) : I.holds (s.updProof e f) := h
@[simp] theorem holds_updDemand (e f) (h : I.holds s) : I.holds (s.updDemand e f) := h
@[simp] theorem holds_updLineEnd (e f) (h : I.holds s) : I.holds (s.updLineEnd e f) := h
@[simp] theorem holds_updStation (a f) (h : I.holds s) : I.holds (s.updStation a f) := h
@[simp] theorem holds_updSub (i f) (h : I.holds s) : I.holds (s.updSub i f) := h
@[simp] theorem holds_updIntegrity (f) (h : I.holds s) : I.holds (s.updIntegrity f) := h
@[simp] theorem holds_updPanel (f) (h : I.holds s) : I.holds (s.updPanel f) := h
@[simp] theorem holds_updSwitch (f) (h : I.holds s) : I.holds (s.updSwitch f) := h
@[simp] theorem holds_updOutput (n f) (h : I.holds s) : I.holds (s.updOutput n f) := h
@[simp] theorem holds_updChannel (c f) (h : I.holds s) : I.holds (s.updChannel c f) := h
@[simp] theorem holds_updCollar (l f) (h : I.holds s) : I.holds (s.updCollar l f) := h
@[simp] theorem holds_reach (t) (h : I.holds s) : I.holds (s.reach t) := h
@[simp] theorem holds_setRelease (e r) (h : I.holds s) : I.holds (s.setRelease e r) := h
@[simp] theorem holds_consumeOffer (e) (h : I.holds s) : I.holds (s.consumeOffer e) := h
@[simp] theorem holds_putFields (e c v) (h : I.holds s) : I.holds (s.putFields e c v) := h
@[simp] theorem holds_judgeProof (e c v) (h : I.holds s) : I.holds (s.judgeProof e c v) := h
@[simp] theorem holds_putView (e c v) (h : I.holds s) : I.holds (s.putView e c v) := h
@[simp] theorem holds_demandAccepted (e n) (h : I.holds s) : I.holds (s.demandAccepted e n) := h
@[simp] theorem holds_clearHolds (h : I.holds s) : I.holds s.clearHolds := h
@[simp] theorem holds_clearLanes (h : I.holds s) : I.holds s.clearLanes := h
@[simp] theorem holds_markKey (h : I.holds s) : I.holds s.markKey := h
@[simp] theorem holds_ceaseBells (h : I.holds s) : I.holds s.ceaseBells := h
@[simp] theorem holds_holdOffKeys (h : I.holds s) : I.holds s.holdOffKeys := h
@[simp] theorem holds_notify (k n) (h : I.holds s) : I.holds (s.notify k n) := I.notify k n h
@[simp] theorem holds_register (i) (h : I.holds s) : I.holds (s.register i) := I.take i h
@[simp] theorem holds_registerRefused (c r b) (h : I.holds s) : I.holds (s.registerRefused c r b) :=
  I.take _ h
@[simp] theorem holds_contained (k n) (h : I.holds s) : I.holds (s.contained k n) := I.notify _ n h
@[simp] theorem holds_silence (h : I.holds s) : I.holds s.silence := h
@[simp] theorem holds_collarAll (h : I.holds s) : I.holds s.collarAll := by
  unfold State.collarAll; unfold Law.holds at *; simpa only using h
@[simp] theorem holds_asPoisoned (rs) (h : I.holds s) : I.holds (s.asPoisoned rs) := h
@[simp] theorem holds_latchDrops (h : I.holds s) : I.holds s.latchDrops := by
  unfold State.latchDrops; unfold Law.holds at *; simpa only using h
@[simp] theorem holds_commandOutputs (h : I.holds s) : I.holds s.commandOutputs := by
  have h1 := holds_latchDrops I h
  unfold State.commandOutputs; unfold Law.holds at *; simpa only using h1
@[simp] theorem holds_cutLine (h : I.holds s) : I.holds s.cutLine := I.nil h

/-- A single telegram joins the queue where the queue takes it. -/
theorem holds_enqueue {t : TxEntry} (ht : t.body.coalesces = false) (hs : s.takesSingle = true)
    (h : I.holds s) : I.holds (s.enqueue t) := by
  refine I.single (u := s.line) h ht ?_
  exact of_decide_eq_true (Bool.and_eq_true_iff.mp hs).2

/-- What names a section end is taken where any single telegram is. -/
theorem takesSingle_of_takesAt {e : EndNo} (h : s.takesAt e = true) : s.takesSingle = true :=
  (Bool.and_eq_true_iff.mp h).1

@[simp] theorem holds_registerChange (c old new b) (h : I.holds s) :
    I.holds (s.registerChange c old new b) := by
  unfold State.registerChange; (repeat' split) <;> simp [h]
@[simp] theorem holds_registerView (c old new b) (h : I.holds s) :
    I.holds (s.registerView c old new b) := by
  unfold State.registerView; dsimp only; (repeat' split) <;> simp [h]
@[simp] theorem holds_changeView (e c v b) (h : I.holds s) : I.holds (s.changeView e c v b) := by
  unfold State.changeView; simp [h]
@[simp] theorem holds_refuseMove (e c p r) (h : I.holds s) : I.holds (s.refuseMove e c p r) := by
  unfold State.refuseMove; simp [h]
@[simp] theorem holds_followRelease (e) (h : I.holds s) : I.holds (s.followRelease e) := by
  unfold State.followRelease; (repeat' split) <;> simp [h]
@[simp] theorem holds_clearPairLatches (e) (h : I.holds s) : I.holds (s.clearPairLatches e) := by
  unfold State.clearPairLatches
  (repeat' split) <;> first
    | exact h
    | exact each_holds I.holds _ _ (fun s x h => by split <;> exact h) h
@[simp] theorem holds_consume (e n) (h : I.holds s) : I.holds (s.consume e n) := by
  unfold State.consume; simp [h]
@[simp] theorem holds_takeAcceptance (e c) (h : I.holds s) : I.holds (s.takeAcceptance e c) := by
  unfold State.takeAcceptance; simp [h]
@[simp] theorem holds_demandRefused (e a r) (h : I.holds s) : I.holds (s.demandRefused e a r) := by
  unfold State.demandRefused; dsimp only; (repeat' split) <;> simp [h]
@[simp] theorem holds_followDemand (e) (h : I.holds s) : I.holds (s.followDemand e) := by
  unfold State.followDemand; dsimp only; (repeat' split) <;> simp [h]
@[simp] theorem holds_followViews (h : I.holds s) : I.holds s.followViews :=
  each_holds I.holds _ _ (fun _ e h => holds_followDemand I e h)
    (each_holds I.holds _ _ (fun _ e h => holds_followRelease I e h) h)
@[simp] theorem holds_autoArrivalRefused (e c b r) (h : I.holds s) :
    I.holds (s.autoArrivalRefused e c b r) := by
  unfold State.autoArrivalRefused; split <;> simp [h]
@[simp] theorem holds_requestRefused (e c p r) (h : I.holds s) :
    I.holds (s.requestRefused e c p r) := by
  unfold State.requestRefused; (repeat' split) <;> simp [h]
@[simp] theorem holds_settle (e c o) (h : I.holds s) : I.holds (s.settle e c o) := by
  unfold State.settle; dsimp only; (repeat' split) <;> simp (disch := simp [h]) [h]
@[simp] theorem holds_lapse (e) (h : I.holds s) : I.holds (s.lapse e) := by
  unfold State.lapse; (repeat' split) <;> simp [h]
@[simp] theorem holds_requestLost (t) (h : I.holds s) : I.holds (s.requestLost t) := by
  unfold State.requestLost; (repeat' split) <;> simp [h]
@[simp] theorem holds_obstruct (e) (h : I.holds s) : I.holds (s.obstruct e) := by
  unfold State.obstruct; dsimp only; (repeat' split) <;> simp [h]
@[simp] theorem holds_ownerRestarted (e c) (h : I.holds s) : I.holds (s.ownerRestarted e c) := by
  unfold State.ownerRestarted; dsimp only
  exact holds_updBell I _ _ (holds_setRelease I _ _ (holds_changeView I _ _ _ _ (holds_lapse I e h)))
@[simp] theorem holds_farRestarted (e c) (h : I.holds s) : I.holds (s.farRestarted e c) := by
  unfold State.farRestarted; dsimp only; split <;> simp (disch := simp [h])
@[simp] theorem holds_autoOccupy (s0 e) (h : I.holds s) : I.holds (s.autoOccupy s0 e) := by
  unfold State.autoOccupy; (repeat' split) <;> simp [h]

/-! Switching -/

@[simp] theorem holds_freeKeys (h : I.holds s) : I.holds s.freeKeys := by
  unfold State.freeKeys; exact each_holds I.holds _ _ (fun s e h => holds_updBell I e _ h) h
@[simp] theorem holds_ignoreKeys (h : I.holds s) : I.holds s.ignoreKeys := by
  unfold State.ignoreKeys; exact each_holds I.holds _ _ (fun s e h => holds_updBell I e _ h) h
@[simp] theorem holds_endWaits (h : I.holds s) : I.holds s.endWaits := by
  unfold State.endWaits; exact each_holds I.holds _ _ (fun s e h => holds_updProof I e _ h) h
@[simp] theorem holds_goOut (h : I.holds s) : I.holds s.goOut := by
  unfold State.goOut; simp (disch := simp [h])
@[simp] theorem holds_comeIn (c) (h : I.holds s) : I.holds (s.comeIn c) := by
  unfold State.comeIn; simp (disch := simp (disch := simp [h]) [h])
@[simp] theorem holds_forceIn (c) (h : I.holds s) : I.holds (s.forceIn c) := by
  unfold State.forceIn; (repeat' split) <;> simp [h]
@[simp] theorem holds_judgeSwitch (h : I.holds s) : I.holds s.judgeSwitch := by
  unfold State.judgeSwitch; (repeat' split) <;> simp [h]

/-! The line unit's offers -/

@[simp] theorem holds_offerSectionState (e) (h : I.holds s) : I.holds (s.offerSectionState e) := by
  unfold State.offerSectionState
  (repeat' split) <;> first
    | exact h
    | exact holds_updLineEnd I _ _ (I.coalescing (u := s.line) h rfl rfl)
@[simp] theorem holds_offerEndReport (h : I.holds s) : I.holds s.offerEndReport := by
  unfold State.offerEndReport
  (repeat' split) <;> first
    | exact h
    | exact I.coalescing (u := s.line) h rfl rfl
@[simp] theorem holds_offerAllStates (h : I.holds s) : I.holds s.offerAllStates :=
  each_holds I.holds _ _ (fun _ e h => holds_offerSectionState I e h) h
@[simp] theorem holds_verifyFailed (h : I.holds s) : I.holds s.verifyFailed := by
  unfold State.verifyFailed; dsimp only; split <;> simp [h]
@[simp] theorem holds_sendFailed (h : I.holds s) : I.holds s.sendFailed := by
  unfold State.sendFailed; dsimp only
  have h1 := holds_cutLine I (holds_verifyFailed I h)
  split
  · exact I.single (u := s.verifyFailed.cutLine.line) h1 rfl (Nat.zero_lt_succ 8)
  · exact h1

/-! Faults -/

@[simp] theorem holds_stationStale (a) (h : I.holds s) : I.holds (s.stationStale a) := by
  unfold State.stationStale
  split
  · exact each_holds I.holds _ _ (fun s e h => by (repeat' split) <;> simp [h]) h
  · exact h
@[simp] theorem holds_mirrorStale (e) (h : I.holds s) : I.holds (s.mirrorStale e) := by
  unfold State.mirrorStale; split <;> simp (disch := simp [h]) [h]
@[simp] theorem holds_enterLockdown (h : I.holds s) : I.holds s.enterLockdown := by
  unfold State.enterLockdown; dsimp only
  refine holds_notify I _ _ (holds_updPanel I _ (holds_updIntegrity I _ (holds_sendFailed I ?_)))
  exact holds_ceaseBells I (holds_commandOutputs I (holds_clearLanes I (holds_clearHolds I h)))
theorem holds_firstUrgent (k x op eff) (h : I.holds s) : I.holds (s.firstUrgent k x op eff) := by
  unfold State.firstUrgent State.lapseAll; dsimp only
  refine holds_notify I _ _ (holds_forceIn I _ ?_)
  refine each_holds I.holds _ _ (fun s e h => holds_followRelease I e h) ?_
  refine each_holds I.holds _ _ (fun s e h => holds_lapse I e h) ?_
  exact holds_commandOutputs I (holds_clearHolds I h)
@[simp] theorem holds_reinitTimer (x) (h : I.holds s) : I.holds (s.reinitTimer x) := by
  unfold State.reinitTimer; unfold Law.holds at *; simpa only using h
theorem holds_furtherUrgent (k) (h : I.holds s) : I.holds (s.furtherUrgent k) := by
  unfold State.furtherUrgent; dsimp only
  exact holds_enterLockdown I (holds_forceIn I _ (holds_followViews I (holds_updIntegrity I _ h)))
@[simp] theorem holds_urgent (k x op eff) (h : I.holds s) : I.holds (s.urgent k x op eff) := by
  unfold State.urgent
  (repeat' split) <;> first
    | with_reducible exact holds_firstUrgent I _ _ _ _ h
    | with_reducible exact holds_furtherUrgent I _ h
    | with_reducible exact holds_updIntegrity I _ h
    | with_reducible exact h
@[simp] theorem holds_oweLost (t) (h : I.holds s) : I.holds (s.oweLost t) := by
  unfold State.oweLost; split
  · simpa only [Law.holds, State.updLine] using h
  · simp [h]
  · exact h
theorem holds_reinitQueue (h : I.holds s) : I.holds s.reinitQueue := by
  unfold State.reinitQueue
  refine each_holds I.holds _ _ (fun s e h => holds_oweLost I _ (holds_requestLost I _ h)) ?_
  exact holds_notify I _ _ (holds_cutLine I h)
theorem holds_reinitView (e) (h : I.holds s) : I.holds (s.reinitView e) := by
  have h1 (c) := holds_followRelease I e (holds_changeView I e c View.fresh false h)
  unfold State.reinitView; dsimp only
  (repeat' split) <;> first
    | exact h
    | exact holds_followDemand I _ (h1 _)
    | exact h1 _
@[simp] theorem holds_normalTime (l n) (h : I.holds s) : I.holds (s.normalTime l n) := by
  unfold State.normalTime; (repeat' split) <;> simp [h]
@[simp] theorem holds_leaveMid (l) (h : I.holds s) : I.holds (s.leaveMid l) := by
  unfold State.leaveMid; split <;> exact h
theorem holds_reinitLever (l) (h : I.holds s) : I.holds (s.reinitLever l) :=
  holds_updLever I l (fun _ => Lever.fresh) (holds_leaveMid I l h)
@[simp] theorem holds_reinit (r) (h : I.holds s) : I.holds (s.reinit r) := by
  cases r with
  | queue => exact holds_reinitQueue I h
  | sectionRec e => exact holds_reinitView I e h
  | mirror e => exact holds_reinitView I e h
  | stationRec a => exact holds_updStation I _ _ (holds_stationStale I _ h)
  | freshness e => exact holds_updLineEnd I _ _ (holds_mirrorStale I _ h)
  | switch => exact holds_updSwitch I _ (holds_updSwitch I _ (holds_forceIn I _ h))
  | fixed r => exact h
  | digest r => exact h
  | channel c => exact holds_updChannel I _ _ h
  | lever l => exact holds_reinitLever I _ h
  | collars => exact holds_collarAll I h
  | timer t => exact holds_reinitTimer I t h
  | key e => exact holds_updBell I _ _ h
  | offer e => exact holds_updBell I _ _ h
  | outstanding e => exact holds_updBell I _ _ h
  | replay => exact holds_silence I (by unfold Law.holds at *; simpa only using h)
  | sub i => exact holds_updSub I _ _ h
  | release e => exact holds_setRelease I _ _ h
  | demand e => exact holds_updEnd I _ _ h
@[simp] theorem holds_mismatch (op r) (h : I.holds s) : I.holds (s.mismatch op r) := by
  unfold State.mismatch; dsimp only
  refine holds_urgent I _ _ _ _ ?_
  split
  · exact h
  · exact holds_reinit I _ h
@[simp] theorem holds_normalMoved (l n) (h : I.holds s) : I.holds (s.normalMoved l n) := by
  unfold State.normalMoved
  (repeat' split) <;> first
    | exact h
    | exact holds_normalTime I _ _ h
    | exact holds_normalTime I _ _ (holds_mismatch I _ _ h)
@[simp] theorem holds_rereads (op rs) (h : I.holds s) : I.holds (s.rereads op rs) :=
  each_holds I.holds _ _ (fun s r h => by
    split
    · exact holds_mismatch I op r h
    · exact h) h
@[simp] theorem holds_found (op r) (h : I.holds s) : I.holds (s.found op r) := by
  have h1 := holds_rereads I op (s.reinitReads r) (holds_mismatch I op r h)
  unfold State.found; dsimp only
  (repeat' split) <;> first
    | exact h1
    | exact holds_normalMoved I _ _ h1
/-- Verification keeps every law, whatever damage it finds. -/
@[simp] theorem holds_verify (op rs) (h : I.holds s) : I.holds (s.verify op rs) :=
  each_holds I.holds _ _ (fun s r h => by
    split
    · exact holds_found I op r h
    · exact h) h
theorem holds_guarded (op rs) {act : State → State} {close : State → State → State}
    (ha : ∀ t, I.holds t → I.holds (act t)) (hc : ∀ t, I.holds t → I.holds (close t s))
    (h : I.holds s) : I.holds (s.guarded op rs act close) := by
  unfold State.guarded; split
  · exact ha _ h
  · exact hc _ (ha _ (holds_verify I op rs h))

/-! What builds single telegrams -/

theorem holds_makeRequest (e c k n o) {refused : State → State}
    (hr : ∀ t, I.holds t → I.holds (refused t)) (h : I.holds s) :
    I.holds (s.makeRequest e c k n o refused) := by
  have hv := holds_verify I .telegramBuild (.fixed (.sectionEnd e) :: placeReads) h
  unfold State.makeRequest; dsimp only
  (repeat' split) <;> first
    | exact hv
    | exact holds_updView I _ _ (holds_enqueue I rfl (takesSingle_of_takesAt ‹_›) hv)
    | exact hr _ (holds_updView I _ _ (holds_notify I _ _ hv))
@[simp] theorem holds_offerOpen (m) (h : I.holds s) : I.holds (s.offerOpen m) := by
  have hv := holds_verify I .telegramBuild (placeReads ++ s.endStatics) h
  unfold State.offerOpen; dsimp only
  split
  · exact hv
  · split
    · exact holds_enqueue I rfl (Bool.and_eq_true_iff.mp ‹_›).1 hv
    · exact I.notify _ _ hv
@[simp] theorem holds_offerAck (e b m) (h : I.holds s) : I.holds (s.offerAck e b m) := by
  have hv := holds_verify I .telegramBuild (s.stateReads e) h
  unfold State.offerAck; dsimp only
  (repeat' split) <;> first
    | exact h
    | exact hv
    | exact holds_updLineEnd I _ _ (holds_enqueue I rfl (takesSingle_of_takesAt ‹_›) hv)
    | exact I.notify _ _ hv
@[simp] theorem holds_offerAnswer (e c n o) (h : I.holds s) : I.holds (s.offerAnswer e c n o) := by
  have hv := holds_verify I .telegramBuild placeReads h
  unfold State.offerAnswer; dsimp only
  (repeat' split) <;> first
    | exact hv
    | exact holds_enqueue I rfl ‹_› hv
    | exact I.notify _ _ hv
@[simp] theorem holds_beginLine (h : I.holds s) : I.holds s.beginLine := by
  unfold State.beginLine; dsimp only
  exact holds_offerAllStates I (holds_offerEndReport I (holds_verify I _ _ (holds_offerOpen I _ h)))
@[simp] theorem holds_acceptFor (e a c) (h : I.holds s) : I.holds (s.acceptFor e a c) := by
  unfold State.acceptFor; dsimp only
  (repeat' split) <;> first
    | exact h
    | exact holds_demandRefused I _ _ _ h
    | exact holds_demandAccepted I _ _ (holds_takeAcceptance I _ _ h)
    | exact holds_makeRequest I _ _ _ _ _ (fun t ht => holds_demandRefused I _ _ _ ht) h
@[simp] theorem holds_attemptAcceptance (e) (h : I.holds s) : I.holds (s.attemptAcceptance e) := by
  unfold State.attemptAcceptance
  (repeat' split) <;> first
    | exact h
    | exact holds_acceptFor I _ _ _ (holds_verify I _ _ (holds_updDemand I _ _ h))
@[simp] theorem holds_createDemand (e) (h : I.holds s) : I.holds (s.createDemand e) := by
  unfold State.createDemand; exact holds_attemptAcceptance I e h
@[simp] theorem holds_grantRelease (e c) (h : I.holds s) : I.holds (s.grantRelease e c) := by
  unfold State.grantRelease; dsimp only
  (repeat' split) <;> simp (disch := simp [h]) [h]
@[simp] theorem holds_judgeRelease (e c v) (h : I.holds s) : I.holds (s.judgeRelease e c v) := by
  have h1 := holds_followRelease I e (holds_verify I .sectionUpdate (releaseReads e) h)
  unfold State.judgeRelease; dsimp only
  (repeat' split) <;> first
    | exact h
    | exact h1
    | exact holds_grantRelease I _ _ (holds_verify I _ _ h1)
@[simp] theorem holds_attemptCancel (e c) (h : I.holds s) : I.holds (s.attemptCancel e c) := by
  unfold State.attemptCancel; dsimp only
  (repeat' split) <;> first
    | exact h
    | exact holds_updView I _ _ h
    | exact holds_makeRequest I _ _ _ _ _ (fun t ht => holds_updView I _ _ ht) (holds_updView I _ _ h)
@[simp] theorem holds_giveArrival (e c) (h : I.holds s) : I.holds (s.giveArrival e c) := by
  unfold State.giveArrival; dsimp only
  (repeat' split) <;> first
    | exact h
    | exact holds_updProof I _ _ h
    | exact holds_changeView I _ _ _ _ h
    | exact holds_makeRequest I _ _ _ _ _ (fun t ht => holds_autoArrivalRefused I _ _ _ _ ht)
        (holds_updProof I _ _ h)
@[simp] theorem holds_attemptArrival (e c) (h : I.holds s) : I.holds (s.attemptArrival e c) := by
  unfold State.attemptArrival
  split
  · exact holds_giveArrival I e c (holds_verify I _ _ h)
  · exact h
@[simp] theorem holds_completeProof (e c) (h : I.holds s) : I.holds (s.completeProof e c) :=
  holds_attemptArrival I e c (holds_updProof I _ _ h)
@[simp] theorem holds_afterSettled (e c o) (h : I.holds s) : I.holds (s.afterSettled e c o) := by
  unfold State.afterSettled; dsimp only; (repeat' split) <;> simp [h]
@[simp] theorem holds_followProof (s0 e) (h : I.holds s) : I.holds (s.followProof s0 e) := by
  unfold State.followProof; dsimp only; (repeat' split) <;> simp (disch := simp [h]) [h]

/-! Closing an event -/

@[simp] theorem holds_judgeLanes (found) (h : I.holds s) : I.holds (s.judgeLanes found) := by
  unfold State.judgeLanes; split
  · unfold Law.holds at *; simpa only using h
  · exact h
@[simp] theorem holds_evaluate (found) (h : I.holds s) : I.holds (s.evaluate found) :=
  holds_commandOutputs I (holds_judgeLanes I found h)
@[simp] theorem holds_judgeProving (b) (h : I.holds s) : I.holds (s.judgeProving b) := by
  unfold State.judgeProving; split <;> exact h
@[simp] theorem holds_conditionVerify (b) (h : I.holds s) : I.holds (s.conditionVerify b) := by
  unfold State.conditionVerify
  split
  · exact holds_verify I _ _ (holds_verify I _ _ h)
  · exact h
@[simp] theorem holds_provingVerify (b) (h : I.holds s) : I.holds (s.provingVerify b) :=
  holds_verify I _ _ (holds_conditionVerify I b h)
@[simp] theorem holds_settledReactions (b) (h : I.holds s) : I.holds (s.settledReactions b) :=
  each_holds I.holds _ _ (fun s e h => by (repeat' split) <;> simp [h]) h
@[simp] theorem holds_trackReactions (b) (h : I.holds s) : I.holds (s.trackReactions b) :=
  each_holds I.holds _ _ (fun _ e h => holds_autoOccupy I b e h)
    (each_holds I.holds _ _ (fun _ e h => holds_followProof I b e h) h)
@[simp] theorem holds_answerChanges (b) (h : I.holds s) : I.holds (s.answerChanges b) := by
  unfold State.answerChanges; dsimp only
  have hv := holds_verify I .sectionUpdate ((s.followVerify b).followReads b)
    (holds_verify I .sectionUpdate (s.followReads b) h)
  split
  · exact holds_trackReactions I _ (holds_settledReactions I _ hv)
  · exact hv
@[simp] theorem holds_followChanges (b) (h : I.holds s) : I.holds (s.followChanges b) := by
  unfold State.followChanges; dsimp only
  have hv := holds_verify I .sectionUpdate (s.viewsReads b) h
  split
  · exact holds_followViews I hv
  · exact hv
@[simp] theorem holds_switchVerify (b) (h : I.holds s) : I.holds (s.switchVerify b) :=
  holds_verify I _ _ (holds_verify I _ _ h)
@[simp] theorem holds_judgeStation (b) (h : I.holds s) : I.holds (s.judgeStation b) := by
  unfold State.judgeStation; dsimp only
  have hv := holds_provingVerify I b (holds_switchVerify I b (holds_followChanges I b h))
  refine holds_judgeProving I b ?_
  split
  · exact holds_judgeSwitch I hv
  · exact hv
@[simp] theorem holds_offerChanges (s0) (h : I.holds s) : I.holds (s.offerChanges s0) := by
  unfold State.offerChanges; dsimp only
  have h1 := each_holds I.holds (s.statesDue s0) _ (fun _ e h => holds_offerSectionState I e h) h
  split
  · exact holds_offerEndReport I h1
  · exact h1
theorem holds_closeRounds (s0 all n) {t b : State} {found} (h : I.holds t) :
    I.holds (closeRounds s0 all n t b found).1 := by
  induction n generalizing t b found with
  | zero => exact h
  | succ n ih =>
    have hr := holds_judgeStation I b (holds_answerChanges I b h)
    unfold closeRounds; dsimp only
    split
    · with_reducible exact holds_verify I _ _ (holds_verify I _ _ hr)
    · with_reducible exact ih (holds_verify I _ _ (holds_verify I _ _ hr))
/-- Closing an event keeps every law of the queue and the records, whatever damage it finds. -/
@[simp] theorem holds_closeEvent (s0 all found) (h : I.holds s) :
    I.holds (s.closeEvent s0 all found) := by
  unfold State.closeEvent; dsimp only
  exact holds_offerChanges I _ (holds_evaluate I _ (holds_closeRounds I _ _ _ h))
@[simp] theorem holds_react (s0) (h : I.holds s) : I.holds (s.react s0) :=
  holds_closeEvent I s0 false [] h
theorem holds_quietly (op rs) {act : State → State} (ha : ∀ t, I.holds t → I.holds (act t))
    (h : I.holds s) : I.holds (s.quietly op rs act) :=
  holds_guarded I op rs ha (fun _ ht => holds_react I s ht) h

/-! Bells -/

@[simp] theorem holds_tryVerify (op gs ks) (h : I.holds s) : I.holds (s.tryVerify op gs ks) := by
  induction ks generalizing s with
  | nil => exact h
  | cons k ks ih =>
    unfold State.tryVerify; dsimp only
    (repeat' split) <;> first
      | exact holds_verify I _ _ h
      | exact ih (holds_verify I _ _ h)
@[simp] theorem holds_matchVerify (op gs o) (h : I.holds s) : I.holds (s.matchVerify op gs o) := by
  unfold State.matchVerify; split <;> simp [h]
@[simp] theorem holds_sendingEffects (e c m) (h : I.holds s) : I.holds (s.sendingEffects e c m) := by
  unfold State.sendingEffects; (repeat' split) <;> simp [h]
@[simp] theorem holds_codeVerify (e m) (h : I.holds s) : I.holds (s.codeVerify e m) :=
  holds_verify I _ _ (holds_verify I _ _ h)
@[simp] theorem holds_bellVerify (e m) (h : I.holds s) : I.holds (s.bellVerify e m) :=
  holds_verify I _ _ (holds_matchVerify I _ _ _ h)
@[simp] theorem holds_sendMeant (e c g o r m) (h : I.holds s) :
    I.holds (s.sendMeant e c g o r m) := by
  have hv := holds_codeVerify I e m h
  unfold State.sendMeant; dsimp only
  (repeat' split) <;> first
    | exact hv
    | exact holds_register I _ (holds_sendingEffects I _ _ _
        (holds_enqueue I rfl (takesSingle_of_takesAt ‹_›) hv))
    | exact holds_updBell I _ _ (holds_notify I _ _ hv)
@[simp] theorem holds_sendCode (e g o r) (h : I.holds s) : I.holds (s.sendCode e g o r) := by
  unfold State.sendCode; dsimp only; split <;> simp [h]
@[simp] theorem holds_ring (e g) (h : I.holds s) : I.holds (s.ring e g) := by
  unfold State.ring; dsimp only
  split
  · exact h
  · simp [h]
theorem holds_receivingEffects (e c m) (h : I.holds s) : I.holds (s.receivingEffects e c m) := by
  unfold State.receivingEffects; (repeat' split) <;> simp [h]
@[simp] theorem holds_useCode (e c m) (h : I.holds s) : I.holds (s.useCode e c m) := by
  have h2 := holds_receivingEffects I e c (s.meaning m.groups m.overlong) (holds_ring I e m.groups h)
  unfold State.useCode; dsimp only
  (repeat' split) <;> first
    | exact holds_sendCode I _ _ _ _ (holds_register I _ h2)
    | exact holds_register I _ h2
@[simp] theorem holds_receiveCode (e c m) (h : I.holds s) : I.holds (s.receiveCode e c m) := by
  have h1 := holds_bellVerify I e m h
  unfold State.receiveCode; dsimp only
  (repeat' split) <;> first
    | exact h
    | exact holds_useCode I _ _ _ h1
    | exact h1
@[simp] theorem holds_endCode (e) (h : I.holds s) : I.holds (s.endCode e) := by
  unfold State.endCode; dsimp only; split <;> simp [h]
@[simp] theorem holds_stickKey (e o) (h : I.holds s) : I.holds (s.stickKey e o) := by
  unfold State.stickKey; simp [h]
@[simp] theorem holds_clearLost (e) (h : I.holds s) : I.holds (s.clearLost e) := h
@[simp] theorem holds_keyPress (e) (h : I.holds s) : I.holds (s.keyPress e) := by
  unfold State.keyPress
  split
  · exact h
  · dsimp only; (repeat' split) <;> first | exact holds_endCode I e h | exact h
  · exact h
  · exact h
  · exact h
@[simp] theorem holds_keyRelease (e) (h : I.holds s) : I.holds (s.keyRelease e) := by
  unfold State.keyRelease
  (repeat' split) <;> first
    | exact h
    | exact holds_endCode I e h
    | exact holds_stickKey I e _ h
@[simp] theorem holds_keyChange (e b) (h : I.holds s) : I.holds (s.keyChange e b) := by
  have h1 := holds_verify I .telegramBuild (s.pressReads e) h
  unfold State.keyChange State.keyAct
  (repeat' split) <;> first
    | exact h
    | exact holds_keyPress I e h
    | exact holds_keyRelease I e h
    | exact h1
    | exact holds_keyPress I e h1
    | exact holds_keyRelease I e h1

end

end Sys2Proof.Machine
end

