-- ==== Sys2Proof/Laws/PerInstr.lean ====
section
/-! SUPPORT. Laws that every command has, one lemma for each constructor of `Instr`. -/

namespace Sys2Proof.Laws.PanelFrame

open Sys2Proof Sys2Proof.Machine

/-- The code and payload of a well-formed panel command: the code is one of the nineteen, the payload
fits the length byte, and both together read as the command (section 11.3). A row that is no panel
command has none. -/
def Statement (i : Instr) : Prop :=
  i.wellFormed = true → ∀ k p, panelPayload i = some (k, p) →
    1 ≤ k ∧ k ≤ 19 ∧ p.length < 256 ∧ readPayload k p = some i

/-- A row without a payload has the law. -/
theorem statement_of_none {i : Instr} (h : panelPayload i = none) : Statement i := by
  intro _ k p hp; rw [h] at hp; cases hp

/-- A command that carries one byte reads back. -/
theorem statement_of_byte {i : Instr} {c n : Nat} (f : Nat → Instr)
    (hi : i = f n) (hp : panelPayload i = some (c, [byte n])) (hc : 1 ≤ c ∧ c ≤ 19)
    (hw : i.wellFormed = true → n < 256)
    (hr : ∀ b : Byte, readPayload c [b] = some (f b.toNat)) : Statement i := by
  intro h k p he
  rw [hp] at he
  cases he
  exact ⟨hc.1, hc.2, by simp, by rw [hr, byte_toNat_lt (hw h), hi]⟩

/-- A command without operands reads back. -/
theorem statement_of_empty {i : Instr} {c : Nat} (hp : panelPayload i = some (c, []))
    (hc : 1 ≤ c ∧ c ≤ 19) (hr : readPayload c [] = some i) : Statement i := by
  intro _ k p he
  rw [hp] at he
  cases he
  exact ⟨hc.1, hc.2, by simp, hr⟩

theorem powerOnReset : Statement .powerOnReset := statement_of_none rfl
theorem resetPinAssert : Statement .resetPinAssert := statement_of_none rfl
theorem memoryTestEnd (passed) : Statement (.memoryTestEnd passed) := statement_of_none rfl
theorem trackSample (c x) : Statement (.trackSample c x) := statement_of_none rfl
theorem referenceUpdate (c counts) : Statement (.referenceUpdate c counts) := statement_of_none rfl
theorem dropConfirmed (c counts) : Statement (.dropConfirmed c counts) := statement_of_none rfl
theorem pickupConfirmed (c counts) : Statement (.pickupConfirmed c counts) := statement_of_none rfl
theorem highValueFailure (c counts) : Statement (.highValueFailure c counts) :=
  statement_of_none rfl
theorem converterFailure (c) : Statement (.converterFailure c) := statement_of_none rfl
theorem channelSettled (c x) : Statement (.channelSettled c x) := statement_of_none rfl
theorem frameScan (inp) : Statement (.frameScan inp) := statement_of_none rfl
theorem takenChange (i) : Statement (.takenChange i) := statement_of_none rfl
theorem timerExpiry (t) : Statement (.timerExpiry t) := statement_of_none rfl
theorem outputReadback (n) : Statement (.outputReadback n) := statement_of_none rfl
theorem lockNotEnergized (n) : Statement (.lockNotEnergized n) := statement_of_none rfl
theorem selfCheck (x) : Statement (.selfCheck x) := statement_of_none rfl
theorem codeEnd (e) : Statement (.codeEnd e) := statement_of_none rfl
theorem stuckKey (e) : Statement (.stuckKey e) := statement_of_none rfl
theorem holdOffEnd (e) : Statement (.holdOffEnd e) := statement_of_none rfl
theorem offerOutstandingExpiry (e) : Statement (.offerOutstandingExpiry e) := statement_of_none rfl
theorem offerRecordExpiry (e) : Statement (.offerRecordExpiry e) := statement_of_none rfl
theorem bellStrokeStart : Statement .bellStrokeStart := statement_of_none rfl
theorem bellStrokeEnd : Statement .bellStrokeEnd := statement_of_none rfl
theorem transmitStart : Statement .transmitStart := statement_of_none rfl
theorem collision : Statement .collision := statement_of_none rfl
theorem transmitSuccess : Statement .transmitSuccess := statement_of_none rfl
theorem openReceived (h entries) : Statement (.openReceived h entries) := statement_of_none rfl
theorem openAckReceived (h m) : Statement (.openAckReceived h m) := statement_of_none rfl
theorem sectionStateReceived (h m) : Statement (.sectionStateReceived h m) := statement_of_none rfl
theorem endReportReceived (h m) : Statement (.endReportReceived h m) := statement_of_none rfl
theorem requestReceived (h m) : Statement (.requestReceived h m) := statement_of_none rfl
theorem answerReceived (h m) : Statement (.answerReceived h m) := statement_of_none rfl
theorem bellReceived (h m) : Statement (.bellReceived h m) := statement_of_none rfl
theorem failedReceived (h sections) : Statement (.failedReceived h sections) :=
  statement_of_none rfl
theorem sectionStateRefresh (e) : Statement (.sectionStateRefresh e) := statement_of_none rfl
theorem endReportRefresh : Statement .endReportRefresh := statement_of_none rfl
theorem answerEchoExpiry (e) : Statement (.answerEchoExpiry e) := statement_of_none rfl
theorem owedReoffer (w) : Statement (.owedReoffer w) := statement_of_none rfl
theorem endReportStale (a) : Statement (.endReportStale a) := statement_of_none rfl
theorem sectionStateStale (e) : Statement (.sectionStateStale e) := statement_of_none rfl
theorem requestLapse (e) : Statement (.requestLapse e) := statement_of_none rfl
theorem arrivalReleaseWaitEnd (e) : Statement (.arrivalReleaseWaitEnd e) := statement_of_none rfl
theorem autoCancelRetry (e) : Statement (.autoCancelRetry e) := statement_of_none rfl
theorem demandRetry (e) : Statement (.demandRetry e) := statement_of_none rfl
theorem autoArrivalRetry (e) : Statement (.autoArrivalRetry e) := statement_of_none rfl
theorem scrubVisit (upset) : Statement (.scrubVisit upset) := statement_of_none rfl
theorem resumePassVisit (upset) : Statement (.resumePassVisit upset) := statement_of_none rfl
theorem timeTick : Statement .timeTick := statement_of_none rfl
theorem transactionAbort (clocked) : Statement (.transactionAbort clocked) := statement_of_none rfl
theorem badCommandFrame (frame) : Statement (.badCommandFrame frame) := statement_of_none rfl
theorem loadBegin : Statement .loadBegin := statement_of_empty rfl (by decide) rfl
theorem loadRecord (kind index content) : Statement (.loadRecord kind index content) := by
  intro h k p he
  have hw := Bool.and_eq_true_iff.mp h
  simp only [recordWellFormed, Bool.and_eq_true, decide_eq_true_eq] at hw
  obtain ⟨⟨⟨hk, hn⟩, hl⟩, hf⟩ := hw
  have he := Prod.mk.inj (Option.some.inj he)
  rw [← he.1, ← he.2]
  refine ⟨by decide, by decide, by simp [two]; omega, ?_⟩
  show (if contentFits (byte kind).toNat content then
    some (Instr.loadRecord (byte kind).toNat (num2 (byte (index / 256)) (byte index)) content)
    else none) = _
  rw [byte_toNat_lt hk, num2_two hn, hf, if_pos rfl]
theorem loadEnd (digest) : Statement (.loadEnd digest) := by
  intro h k p he
  have he := Prod.mk.inj (Option.some.inj he)
  rw [← he.1, ← he.2]
  refine ⟨by decide, by decide, by simp [wordBytes, two], ?_⟩
  exact congrArg (fun d => some (Instr.loadEnd d)) (wordOf_bytes digest)
theorem loadEndChecksComplete : Statement .loadEndChecksComplete := statement_of_none rfl
theorem enterService : Statement .enterService := statement_of_empty rfl (by decide) rfl
theorem restart : Statement .restart := statement_of_empty rfl (by decide) rfl
theorem setTime (tenths) : Statement (.setTime tenths) := by
  intro h k p he
  have he := Prod.mk.inj (Option.some.inj he)
  rw [← he.1, ← he.2]
  refine ⟨by decide, by decide, by simp [three], ?_⟩
  exact congrArg (fun t => some (Instr.setTime t)) (num3_three (of_decide_eq_true h))
theorem setCollars (mask value) : Statement (.setCollars mask value) := by
  intro h k p he
  have he := Prod.mk.inj (Option.some.inj he)
  rw [← he.1, ← he.2]
  refine ⟨by decide, by decide, by simp [maskBytes_length], ?_⟩
  show some (Instr.setCollars (maskOf (maskBytes mask)) (maskOf (maskBytes value))) = _
  rw [maskOf_bytes, maskOf_bytes]
theorem restoreChannel (n) : Statement (.restoreChannel n) :=
  statement_of_byte .restoreChannel rfl rfl (by decide) of_decide_eq_true fun _ => rfl
theorem arrivalRelease (n) : Statement (.arrivalRelease n) :=
  statement_of_byte .arrivalRelease rfl rfl (by decide) of_decide_eq_true fun _ => rfl
theorem clearSwitchCause : Statement .clearSwitchCause := statement_of_empty rfl (by decide) rfl
theorem repairRecord (kind index content) : Statement (.repairRecord kind index content) := by
  intro h k p he
  have hw := Bool.and_eq_true_iff.mp h
  simp only [recordWellFormed, Bool.and_eq_true, decide_eq_true_eq] at hw
  obtain ⟨⟨⟨hk, hn⟩, hl⟩, hf⟩ := hw
  have he := Prod.mk.inj (Option.some.inj he)
  rw [← he.1, ← he.2]
  refine ⟨by decide, by decide, by simp [two]; omega, ?_⟩
  show (if repairFits (byte kind).toNat content then
    some (Instr.repairRecord (byte kind).toNat (num2 (byte (index / 256)) (byte index)) content)
    else none) = _
  rw [byte_toNat_lt hk, num2_two hn, hf, if_pos rfl]
theorem resume : Statement .resume := statement_of_empty rfl (by decide) rfl
theorem readStation : Statement .readStation := statement_of_empty rfl (by decide) rfl
theorem readSection (n) : Statement (.readSection n) :=
  statement_of_byte .readSection rfl rfl (by decide) of_decide_eq_true fun _ => rfl
theorem readTrack (n) : Statement (.readTrack n) :=
  statement_of_byte .readTrack rfl rfl (by decide) of_decide_eq_true fun _ => rfl
theorem readFrame : Statement .readFrame := statement_of_empty rfl (by decide) rfl
theorem readFault : Statement .readFault := statement_of_empty rfl (by decide) rfl
theorem noticeRead : Statement .noticeRead := statement_of_empty rfl (by decide) rfl
theorem registerRead : Statement .registerRead := statement_of_empty rfl (by decide) rfl
theorem receivedTelegramDiscarded (chars spoiled) : Statement (.receivedTelegramDiscarded chars spoiled) :=
  statement_of_none rfl

end Sys2Proof.Laws.PanelFrame
end

