-- ==== Sys2Proof/Tests/Slice0.lean ====
section
/-! SUPPORT. Tests of the model: the checks of well-formedness, worked cases of the spec, one small
step for the commands, and for each statement with hypotheses a state and operands that meet them. -/

namespace Sys2Proof.Tests

set_option Elab.async false

open Sys2Proof Sys2Proof.Machine

/-! ## A small station

Station 1 owns section 10 toward station 2 at E1 and is the far end of section 11 toward station 3
at E2; both are TWO-WAY and form through pair 1. Lever 2 releases trains into section 10, lever 4
into section 11; levers 1 and 3 are the home levers. -/

def channelA : ChannelCfg := ⟨2, 128, 192, 320, 2, 25, 8000, 14400, 12800, true⟩
def endA : EndCfg := ⟨10, 2, .twoWay, true, true, some 0, [.here 0], [.here 1], some 1, some 2, some 0⟩
def endB : EndCfg :=
  ⟨11, 3, .twoWay, false, true, some 2, [], [.here 3, .here 4], some 3, some 5, none⟩

/-- The code table of section 4.8. -/
def codesA : List CodeCfg :=
  [⟨[some 1], .attention⟩, ⟨[some 2], .entering⟩, ⟨[some 2, some 2], .outOfSection⟩,
   ⟨[some 4, some 4], .cancel⟩, ⟨[some 7], .obstruction⟩, ⟨[some 3, some 1], .offer 1⟩,
   ⟨[some 1, some 3], .offer 2⟩, ⟨[some 3, some 2], .offer 3⟩,
   ⟨[some 2, some 3, some 2], .offer 5⟩, ⟨[some 5, none], .testing⟩, ⟨[none, none, none], .other⟩]

def exprsA : List Expr :=
  [⟨1, .reverse, [[.trackClear (.here 6), .releaseAvailable 0]]⟩, ⟨1, .normal, []⟩,
   ⟨1, .control, [[.trackClear (.here 6)]]⟩, ⟨3, .reverse, [[.releaseAvailable 1]]⟩,
   ⟨3, .normal, []⟩, ⟨3, .control, []⟩]

def station : Configuration :=
  { Configuration.absent with
    address := 1
    channels := Vector.replicate 12 channelA
    levers := upd (upd (Vector.replicate 64 ⟨none, none, none, none⟩) 1 fun _ =>
      ⟨some 0, some 0, some 0, some 0⟩) 3 fun _ => ⟨some 1, some 1, some 1, some 0⟩
    timers := upd (Vector.replicate 8 none) 0 fun _ => some ⟨1, .here 6, 120⟩
    exprs := exprsA
    codes := build 24 fun k => codesA[k.val]?
    subs := upd (Vector.replicate 16 none) 0 fun _ => some ⟨2, 3⟩
    ends := upd (upd (Vector.replicate 6 none) 0 fun _ => some endA) 1 fun _ => some endB
    pairs := upd (Vector.replicate 2 none) 0 fun _ => some ⟨0, 1, [1, 3]⟩ }

/-- The image of a configuration, as a panel would stage it. -/
def imageOf (c : Configuration) : List Staged :=
  c.statics.filterMap fun r => (c.content r).map fun v => ⟨r, v.bytes⟩

/-- The station running in a service state, every record new. -/
def at_ (v : Service) : State :=
  { State.reset with
    power := .running, service := v, hasConfig := true, cfg := station, scanned := true, judged := true
    channels := Vector.replicate 12 (Channel.fresh 12800) }

/-- The station IN SERVICE. -/
def base : State := at_ .inService

/-- The part ready for loading. -/
def bare : State := { State.reset with power := .running }

/-- The state after a command. -/
def after (i : Instr) (s : State) : State :=
  match exec i s with
  | .next t => t
  | _ => s

def wheels : Sample := .valid ⟨60, by decide⟩
def clearCh : Channel := { Channel.fresh 12800 with decision := .clear }

/-- The station IN SERVICE with a channel record in track 1. -/
def withCh (ch : Channel) : State := { base with channels := upd base.channels 0 fun _ => ch }

/-- A scan that reads every input open and both lanes right. -/
def quiet : ScanInputs := ⟨0, 0, 0, 0, 0, 0, 0, false, 0, 0⟩

/-! ## Well-formedness: one ill-formed command for each check -/

theorem test_wf_header : (Instr.failedReceived ⟨16, 2⟩ [10]).wellFormed = false := by decide
theorem test_wf_source : (Instr.failedReceived ⟨1, 0⟩ [10]).wellFormed = false := by decide
theorem test_wf_open : (Instr.openReceived ⟨0, 2⟩ [⟨256, true, 0⟩]).wellFormed = false := by decide
theorem test_wf_ack :
    (Instr.openAckReceived ⟨0, 2⟩ ⟨256, true, .blocked, .none⟩).wellFormed = false := by decide
theorem test_wf_state : (Instr.sectionStateReceived ⟨0, 2⟩
    ⟨10, .clear, .inward, 1, none, false, false, none⟩).wellFormed = false := by decide
theorem test_wf_report : (Instr.endReportReceived ⟨0, 2⟩
    ⟨.inService, .inn, [⟨10, none, .none, 256, false⟩], []⟩).wellFormed = false := by decide
theorem test_wf_request :
    (Instr.requestReceived ⟨1, 2⟩ ⟨10, 40, .accept, 0⟩).wellFormed = false := by decide
theorem test_wf_answer :
    (Instr.answerReceived ⟨1, 2⟩ ⟨10, 256, .taken⟩).wellFormed = false := by decide
theorem test_wf_bell :
    (Instr.bellReceived ⟨1, 2⟩ ⟨10, false, false, []⟩).wellFormed = false := by decide
theorem test_wf_failed : (Instr.failedReceived ⟨0, 2⟩ [256]).wellFormed = false := by decide
theorem test_wf_stale : (Instr.endReportStale 0).wellFormed = false := by decide
theorem test_wf_bad_frame :
    (Instr.badCommandFrame (frameOf 13 [])).wellFormed = false := by decide +kernel
theorem test_wf_record : (Instr.loadRecord 5 1 [1, 1, 0]).wellFormed = false := by decide
theorem test_wf_record_index :
    (Instr.loadRecord 5 65536 [1, 1, 0, 0]).wellFormed = false := by decide
theorem test_wf_repair : (Instr.repairRecord 2 769 [0]).wellFormed = false := by decide
theorem test_wf_time : (Instr.setTime 16777216).wellFormed = false := by decide
theorem test_wf_channel : (Instr.restoreChannel 256).wellFormed = false := by decide
theorem test_wf_arrival : (Instr.arrivalRelease 256).wellFormed = false := by decide
theorem test_wf_section : (Instr.readSection 256).wellFormed = false := by decide
theorem test_wf_track : (Instr.readTrack 256).wellFormed = false := by decide

/-! ## Formats -/

/-- The check value of a CRC with R173's parameters over the digits 1 to 9, from general knowledge. -/
theorem test_crc :
    crc16 [0x31, 0x32, 0x33, 0x34, 0x35, 0x36, 0x37, 0x38, 0x39] = 0x29B1 := by decide +kernel
/-- Section 11.2: start byte, length 10, destination, source, kind 6, and the ANSWER's payload. -/
theorem test_answer_chars :
    ((Telegram.answer ⟨21, 40, .refused .releaseUsed⟩).chars ⟨5, 6⟩).take 8
      = [0xC3, 10, 5, 6, 6, 21, 40, 13] := by decide +kernel
/-- Section 11.3: READ STATION's frame is its code, length 0 and the CRC. -/
theorem test_frame : (frameOf 13 []).take 2 = [13, 0] ∧ (frameOf 13 []).length = 4 := by
  decide +kernel
/-- R161, R173: the turnaround byte, then status OK, length 0 and the CRC-16 of three bytes of 0. -/
theorem test_response : (List.range 7).map (State.clockedOut
    (base.updPanel fun p => { p with response := some ⟨.ok, []⟩ })) = [0, 0, 0, 0, 0xCC, 0x9C, 0] := by
  decide +kernel
/-- The table gives no row any bits, so no word spells a command. -/
theorem test_no_bits : decodeTableWord 16 0 = none := rfl

/-! ## Worked cases of section 1.7 -/

theorem test_thresholds : dropThreshold channelA 12800 = 6400 ∧ pickThreshold channelA 12800 = 9600
    ∧ highThreshold channelA 12800 = 16000 := by decide
theorem test_load_bound : channelA.inRange = true := by decide
theorem test_shunt_first : (clearCh.sample channelA wheels).1.f = 9840
    ∧ (clearCh.sample channelA wheels).1.decision = .clear := by decide
theorem test_shunt_third : ({ clearCh with f := 7620 }.sample channelA wheels).1.f = 5955
    ∧ ({ clearCh with f := 7620 }.sample channelA wheels).1.decision = .dropping := by decide
theorem test_shunt_fourth :
    ({ clearCh with f := 5955, decision := .dropping, drop := 1 }.sample channelA wheels).1.f = 4707
    ∧ ({ clearCh with f := 5955, decision := .dropping, drop := 1 }.sample channelA
        wheels).1.decision = .occupied := by decide
theorem test_settles_963 : filtered 2 963 60 = 963 := by decide
theorem test_pick_up_rises : filtered 2 963 800 = 3922 ∧ filtered 2 9053 800 = 9989 := by decide
theorem test_bob : ({ clearCh with f := 5955, decision := .dropping, drop := 1 }.sample channelA
    (.valid ⟨800, by decide⟩)).1.bob = true := by decide
theorem test_sample_notice : ((after (.trackSample 0 (.valid ⟨800, by decide⟩))
    (withCh { clearCh with f := 5955, decision := .dropping, drop := 1 })).records.notices.map
      (·.kind)) = [.trackBob] := by decide +kernel

/-! ## Worked cases of section 4.8 -/

/-- The presses and releases of the keyed offer, in ms; the 10 ms closure places no beat. -/
theorem test_keyed_offer :
    ([(0, 120), (300, 400), (700, 800), (1350, 1450), (1650, 1740)].foldl
      (fun a (x : Nat × Nat) => some (placeBeat a (48 * x.1) (48 * x.2) (48 * 450)))
      none) = some ⟨[3, 2], false, 48 * 1740⟩ := by decide
/-- Ten beats in one group: nine are kept, the tenth sets the overlong flag. -/
theorem test_ten_beats :
    ([0, 1, 2, 3, 4, 5, 6, 7, 8, 9].foldl
      (fun a n => some (placeBeat a (9600 * n) (9600 * n + 4800) 21600)) none)
      = some ⟨[9], true, 91200⟩ := by decide
theorem test_offer_three : base.meaning [3, 2] false = .offer 3 := by decide +kernel
theorem test_three_groups : base.meaning [2, 3, 1] false = .other
    ∧ base.meaning [2, 3, 2] false = .offer 5 := by decide +kernel
theorem test_overlong : base.meaning [9] true = .unrecognised := by decide +kernel
theorem test_code_end : ((after (.codeEnd 0)
    (base.updBell 0 fun b => { b with phase := .gap, code := some ⟨[3, 2], false, 83520⟩ })).clock,
    ((after (.codeEnd 0) (base.updBell 0 fun b =>
      { b with phase := .gap, code := some ⟨[3, 2], false, 83520⟩ })).bell 0).outstanding)
    = (48 * 3240, some ⟨3, 48 * 3240⟩) := by decide +kernel
/-- Strokes of 3, 2 start 250 ms apart within a group and 900 ms apart between the groups. -/
theorem test_pitches : (pitchAfter [3, 2] 1, pitchAfter [3, 2] 3, pitchAfter [3, 2] 4)
    = (48 * 250, 48 * 900, 48 * 250) := by decide
theorem test_stroke : look (after .bellStrokeStart
    { base with replay := ⟨[⟨0, [3, 2]⟩], 0, 0, none, 0⟩ }).latches.bells 0 = true := by
  decide +kernel

/-! ## The line, the frame, the records -/

/-- R76: 2 and 30 bit times for stations 1 and 15; a first retry of station 7 waits 92. -/
theorem test_waits : (waitBits 1 0, waitBits 15 0, waitBits 7 1) = (2, 30, 92) := by decide
/-- Section 5.8: begun at bit 34 and cut off at bit 60, the sender finds the idle gap over at bit 80. -/
theorem test_collision_gap :
    ((base.updLine fun u => { u with
      sending := some ⟨⟨0, .endReport base.report, none⟩, 170, false⟩ }).collideAt
        ⟨⟨0, .endReport base.report, none⟩, 170, false⟩ ⟨0, .endReport base.report, none⟩ 26).line.idleAt
    = 400 := by decide +kernel
/-- R74: the start byte C3H on the line, least significant bit first. -/
theorem test_start_byte_bits : lineBits [Config.startByte]
    = [false, true, true, false, false, false, false, true, true, true] := by decide
theorem test_third_reading : (((⟨false, 0⟩ : Input).read true).read true).closed = false
    ∧ ((((⟨false, 0⟩ : Input).read true).read true).read true) = ⟨true, 0⟩ := by decide
theorem test_lever_positions : (positionOf true false, positionOf false true, positionOf false false)
    = (.normal, .reverse, .mid) := by decide
theorem test_scan_time : (after (.frameScan quiet) base).scanAt = 48 * 5 := by decide +kernel
/-- Section 9.5: the 128th entry raises REGISTER HALF. -/
theorem test_register_half :
    ((⟨List.replicate 127 ⟨0, 0, false, EventInfo.plain .bellSent⟩, 4410, false, [], false, 0,
      false⟩ : RecordUnit).take (EventInfo.plain .bellReceived)).notices.map (·.kind)
      = [.registerHalf] := by decide +kernel
theorem test_midnight : (after .timeTick
    { base with records := { base.records with time := 863999 } }).records.time = 0 := by
  decide +kernel
theorem test_reset : State.reset.service = .unloaded ∧ State.reset.power = .testing
    ∧ State.reset.records.timeValid = false := by decide
theorem test_memory_test : (after (.memoryTestEnd false) State.reset).service = .lockdown := by
  decide +kernel
theorem test_load_begin : (after .loadBegin bare).service = .loading := by decide +kernel
/-- R169: RESTART in UNLOADED is refused NOT LOADED, ENTER SERVICE answered BAD STATE. -/
theorem test_restart_refused : (after .restart bare).panel.response = some ⟨.refused, [2]⟩
    ∧ (after .enterService bare).panel.response = some ⟨.badState, []⟩ := by decide +kernel
theorem test_set_time : (after (.setTime 5) bare).records.timeValid = true := by decide +kernel
theorem test_register_empty : (after .registerRead bare).panel.response.map (·.status)
    = some .ok := by decide +kernel
theorem test_station_read : (after .readStation base).panel.response.map
    (fun r => (r.status, r.payload.length)) = some (.ok, 186) := by decide +kernel
theorem test_idle : step State.reset = .next State.reset := rfl

/-! ## States and operands that meet each statement's hypotheses -/

theorem witness_MemoryTestDecides : State.reset.power = .testing := rfl
theorem witness_FilterLaw : (0 ≤ 4 ∧ 16368 ≤ 16368 ∧ 0 ≤ 1023) ∧ (960 ≤ 16 * 60)
    ∧ (16 * 0 ≤ 16368) := by decide
theorem witness_ThresholdLaw : channelA.inRange = true ∧ channelA.rmin ≤ 8000
    ∧ 14400 ≤ channelA.rmax ∧ (({ channelA with kh := 511 } : ChannelCfg).inRange = true
      ∧ 16368 ≤ 8201 * 511 / 256) := by decide
/-- A reference at its lower bound that would fall, one at its upper bound that would rise, and one
that stays between. -/
theorem witness_ReferenceLaw :
    (channelA.rmin ≤ 8000 ∧ (8000 : Int) + Int.tdiv (0 - 8000) 16 < channelA.rmin)
    ∧ (14400 ≤ channelA.rmax ∧ (channelA.rmax : Int) < 14400 + Int.tdiv (16368 - 14400) 16)
    ∧ (channelA.rmin : Int) ≤ 8000 + Int.tdiv (8015 - 8000) 16 := by decide
theorem witness_IntervalLaw :
    (clearCh.decision = .clear ∧ (clearCh.sample channelA (.valid ⟨800, by decide⟩)).1.decision
      = .clear ∧ (clearCh.sample channelA (.valid ⟨800, by decide⟩)).1.high = 0
      ∧ clearCh.interval + 1 < 100)
    ∧ 100 ≤ { clearCh with interval := 99 }.interval + 1
    ∧ (Channel.fresh 12800).decision ≠ .clear := by decide
theorem witness_TrackSampleTaken : base.live = true ∧ base.Calm := by decide +kernel
/-- E1 proving an arrival over tracks 1 to 3, its proof at a place; the tracks' decisions as given. -/
def proving (p : Nat) (x : List Decision) : State :=
  { base with
    cfg := { station with
      ends := upd station.ends 0 fun _ =>
        some { endA with proving := [.here 0, .here 1, .here 2], entryTrack := some 0 } }
    channels := build 12 fun c =>
      { clearCh with
        decision := x[c.val]?.getD .clear, f := if x[c.val]? = some .picking then 12800 else 5955
        drop := 1, pick := 24, settle := 25 }
    ends := upd base.ends 0 fun d => { d with view := { d.view with
      state := .occupied, dir := .inward, cls := some 3
      proof := some ⟨p, false, none, false, false, false, none⟩ } } }
/-- A train about to run out into section 10. -/
def enteringA : State :=
  (proving 0 [.dropping]).updView 0 fun v => { v with state := .clear, dir := .outward, proof := none }
/-- The second sample below Td, the 25th at or above Tp, and a bob; a train out of a section at its entry
track; a proof at its first track, at its last, complete and broken. -/
theorem witness_DecisionsConfirmed :
    (base.live = true ∧ base.Calm ∧ base.badStatic (.channel 0) = false)
    ∧ (filtered 2 5955 60 < dropThreshold channelA 12800
      ∧ ((withCh { clearCh with f := 5955, decision := .dropping, drop := 1 }).channel 0).decision
        = .dropping ∧ channelA.nd ≤ 1 + 1)
    ∧ (pickThreshold channelA 12800 ≤ filtered 2 12800 800
      ∧ ((withCh { clearCh with decision := .picking, pick := 24 }).channel 0).decision = .picking
      ∧ channelA.np ≤ 24 + 1)
    ∧ (dropThreshold channelA 12800 ≤ filtered 2 5955 800 ∧ base.records.notices.length < 24)
    ∧ (enteringA.working = true ∧ enteringA.isPoisoned (.channel 0) = false
      ∧ ((enteringA.endCfg 0).map fun z => (z.owner, z.entryTrack)) = some (true, some 0)
      ∧ (enteringA.view 0).state = .clear ∧ (enteringA.view 0).dir = .outward)
    ∧ ((proving 0 [.dropping]).working = true ∧ (proving 0 [.dropping]).switchedOut = false
      ∧ ((proving 0 [.dropping]).view 0).shows .occupied endA.toHere = true
      ∧ [Track.here 0, .here 1, .here 2].Nodup)
    ∧ ((proving 2 [.clear, .occupied, .dropping]).knownOccupied (.here 1) = true)
    ∧ ((proving 3 [.picking]).knownClear (.here 1) = true)
    ∧ ((proving 1 [.picking]).knownOccupied (.here 1) = false)
    ∧ ({ enteringA with channels := (proving 0 [.occupied]).channels }.occupiedSince enteringA 0
        { endA with entryTrack := some 0 } = true
      ∧ (base.view 0).shows .occupied endA.toHere = false) := by decide +kernel
/-- R106, R108: the entry track's drop occupies the section; the proof goes on, is complete and is broken. -/
theorem test_arrival_proof :
    ((after (.dropConfirmed 0 60) enteringA).view 0).state = .occupied
    ∧ (((after (.dropConfirmed 0 60) (proving 0 [.dropping])).view 0).proof.map (·.p)) = some 1
    ∧ (((after (.pickupConfirmed 0 800) (proving 3 [.picking])).view 0).proof.map (·.complete))
      = some true
    ∧ (((after (.pickupConfirmed 0 800) (proving 1 [.picking])).view 0).proof.map (·.p)) = some 0 := by
  decide +kernel
theorem witness_ChannelFailures :
    (dropThreshold channelA 12800 ≤ filtered 2 16000 1023
      ∧ highThreshold channelA 12800 < filtered 2 16000 1023
      ∧ ((withCh { clearCh with f := 16000, high := 1 }).channel 0).decision = .clear
      ∧ channelA.nd ≤ ((withCh { clearCh with f := 16000, high := 1 }).channel 0).high + 1)
    ∧ ((withCh { clearCh with faultRun := 2 }).channel 0).decision ≠ .failed
    ∧ 2 ≤ ((withCh { clearCh with faultRun := 2 }).channel 0).faultRun
    ∧ (withCh { clearCh with faultRun := 2 }).records.notices.length < 32 := by decide +kernel
theorem witness_ReferenceAndSettling :
    (dropThreshold channelA 12800 ≤ filtered 2 12800 800
      ∧ filtered 2 12800 800 ≤ highThreshold channelA 12800
      ∧ 99 ≤ ((withCh { clearCh with interval := 99 }).channel 0).interval)
    ∧ ((withCh { clearCh with settle := 24 }).channel 0).settle + 1 = channelA.np
    ∧ TrackEvent.lowFeed ∉ ({ clearCh with f := 12800 }.updateReference channelA).2
    ∧ TrackEvent.lowFeed ∈ ({ clearCh with r := 8000, f := 5000 }.updateReference channelA).2
    ∧ TrackEvent.highFeed ∈ ({ clearCh with r := 14400, f := 16368 }.updateReference channelA).2
    ∧ base.records.notices.length < 32 := by
  decide +kernel
theorem witness_DebounceLaw : ¬([!false, !false, !false] <:+: [true, true, false, true])
    ∧ (⟨false, 2⟩ : Input).run ≤ 2 := by decide
/-- Lever 2 with the taken contacts of a position, at which a scan reads it; section 10's release CONSUMED and
its view CLEAR toward the neighbour, the offered train about to leave past a signal whose control is given. -/
def leverHeld (p : LeverPos) (k : Option Stroke) : State :=
  (((base.updLever 1 fun v =>
    { v with contactsRead := true, position := p, stroke := k
             nContact := ⟨p == .normal, 0⟩, rContact := ⟨p == .reverse, 0⟩ }).updEnd 0 fun d =>
    { d with release := ⟨.consumed, 7, none⟩ }).updView 0 fun v =>
    { v with state := .clear, dir := .outward, cls := some 3, acc := 7 }).updOutput 32 fun o =>
    { o with command := true }
/-- The scan that finds lever 2 where it stands, track 7 CLEAR for it, every monitor at its drive. -/
def scanHeld (p : LeverPos) : ScanInputs :=
  { quiet with
    leverN := if p == .normal then 2 else 0
    leverR := if p == .reverse then 2 else 0, monitors := 1 <<< 32 }
def trackSeven (s : State) : State := { s with channels := upd s.channels 6 fun _ => clearCh }
/-- A lock and a control output with their lever, one of neither; an expression with both lanes right; a lever read
where it stands, at REVERSE with its control given, at NORMAL, and at MID in its stroke; quiet monitors. -/
theorem witness_ScanWritesOutputs :
    (base.power ≠ .held ∧ base.Calm ∧ (at_ .lockdown).power ≠ .held ∧ station.leverOf 31 = none)
    ∧ (∀ p ∈ [LeverPos.normal, .mid, .reverse], (leverHeld p none).live = true
      ∧ (leverHeld p none).Calm ∧ ((leverHeld p none).lever 1).contactsRead = true
      ∧ (scanHeld p).leverN.getLsbD 1 = ((leverHeld p none).lever 1).nContact.closed
      ∧ (scanHeld p).leverR.getLsbD 1 = ((leverHeld p none).lever 1).rContact.closed
      ∧ ∀ n : OutputNo, (scanHeld p).monitors.getLsbD n.val = (leverHeld p none).driven n)
    ∧ (station.leverOf 0 = some 1 ∧ station.leverOf 32 = some 1 ∧ station.exprOf 1 .control = some 2
      ∧ (leverHeld .reverse none).badLever 1 = false ∧ quiet.laneErrA = quiet.laneErrB
      ∧ quiet.laneErrA.getLsbD 79 = false)
    ∧ ((leverHeld .reverse none).output 32).command = true
    ∧ (after (.frameScan (scanHeld .reverse)) (leverHeld .reverse none)).judging = true := by
  decide +kernel
/-- R25, R30, R50: the lock of lever 2 is freed at REVERSE by its normal expression, and its control given while
track 7 is CLEAR over a CONSUMED release; R27: its hold frees it at MID. R31: the track dropped, the control drops
and sets the latch. -/
theorem test_outputs_given :
    (let t := after (.frameScan (scanHeld .reverse)) (trackSeven (leverHeld .reverse none));
      (t.output 0).command = true ∧ (t.output 32).command = true ∧ (t.lever 1).latch = false)
    ∧ ((after (.frameScan (scanHeld .mid)) (leverHeld .mid (some ⟨.normal, true⟩))).output 0).command
      = true
    ∧ (let t := after (.frameScan (scanHeld .reverse)) (leverHeld .reverse none);
      (t.output 32).command = false ∧ (t.lever 1).latch = true) := by decide +kernel

/-- Lever 2 read with its reverse contact as given, its position and its stroke; an AVAILABLE release. -/
def leverAt (r : Bool) (p : LeverPos) (k : Option Stroke) : State :=
  ((base.updLever 1 fun v =>
    { v with contactsRead := true, rContact := ⟨r, 0⟩, position := p, stroke := k }).updEnd 0 fun d =>
    { d with release := ⟨.available, 7, none⟩ }).updView 0 fun v =>
    { v with state := .clear, dir := .outward, cls := some 3, acc := 7 }
/-- A stroke begun from REVERSE, one completed at NORMAL with its timer IDLE and its track not known CLEAR,
one completed at REVERSE over an AVAILABLE release, and REVERSE reached from no stroke. -/
theorem witness_LeverContactChange :
    (base.live = true ∧ (leverAt true .reverse none).scanned = true
      ∧ (leverAt true .reverse none).Calm ∧ ((leverAt true .reverse none).lever 1).contactsRead = true
      ∧ positionOf false (!true) = .mid)
    ∧ (positionOf (!false) false = .normal
      ∧ ((leverAt false .mid (some ⟨.reverse, false⟩)).lever 1).stroke.map (·.left) = some .reverse
      ∧ look station.timers 0 = some ⟨1, .here 6, 120⟩
      ∧ (look (leverAt false .mid (some ⟨.reverse, false⟩)).timers 0).isNone = true
      ∧ base.badStatic (.timer 0) = false ∧ base.knownClear (.here 6) = false)
    ∧ (positionOf false (!false) = .reverse
      ∧ ((leverAt false .mid (some ⟨.normal, true⟩)).lever 1).stroke.map (·.left) = some .normal
      ∧ ((leverAt false .mid (some ⟨.normal, true⟩)).leverCfg 1).releaseOf = some 0
      ∧ (leverAt false .mid (some ⟨.normal, true⟩)).working = true
      ∧ ((leverAt false .mid (some ⟨.normal, true⟩)).release 0).state = .available
      ∧ ((leverAt false .mid (some ⟨.normal, true⟩)).view 0).showsClear endA.away 7 = true
      ∧ (leverAt false .mid none).switchedOut = false
      ∧ ((leverAt false .mid none).output 32).command = false)
    ∧ ((leverAt false .mid none).lever 1).stroke = none
    ∧ ((leverAt false .mid none).leverCfg 1).control ≠ none := by decide +kernel
/-- R23, R33, R97: a stroke ended at NORMAL starts the timer, one ended at REVERSE consumes the release. -/
theorem test_stroke_ends :
    look (after (.takenChange (.leverN 1)) (leverAt false .mid (some ⟨.reverse, false⟩))).timers 0
      = some (240 + 48000 * 120)
    ∧ (after (.takenChange (.leverR 1)) (leverAt false .mid (some ⟨.normal, true⟩))).release 0
      = ⟨.consumed, 7, none⟩ := by decide +kernel
def timing : State := { base with timers := upd base.timers 0 fun _ => some 480 }
theorem witness_TimerExpires : timing.live = true ∧ timing.Calm
    ∧ look timing.timers 0 = some 480 := by decide +kernel
/-- Lever 2 at REVERSE, its lock and control outputs commanded energized. -/
def signalled : State :=
  { base with
    levers := upd base.levers 1 fun v => { v with position := .reverse, contactsRead := true }
    lanes := upd (upd base.lanes 1 fun _ => ⟨true, true, none, false⟩) 2 fun _ =>
      ⟨true, true, none, false⟩
    outputs := upd (upd base.outputs 0 fun o => { o with command := true }) 32 fun o =>
      { o with command := true } }
/-- Besides an output that is not driven, in each state of service: lever 2 at REVERSE with its control output
commanded energized. -/
theorem witness_ReadbackFirstUrgent : base.live = true ∧ base.Calm ∧ (base.output 0).drive = false
    ∧ base.driven 0 = false ∧ signalled.driven 0 = true ∧ (base.output 0).failedMark = false ∧ base.service = .inService
    ∧ (at_ .loaded).live = true ∧ (at_ .loaded).service = .loaded
    ∧ (at_ .proving).live = true ∧ (at_ .proving).service = .proving
    ∧ base.endCfg 0 = some endA ∧ (base.view 0).autoCancel = false ∧ base.hasPairs = true
    ∧ ((base.updSwitch fun w => { w with state := .out, keyIn := ⟨true, 0⟩ }).switchedOut = true)
    ∧ base.records.notices.length < 24 ∧ base.mute = false ∧ endA.owner = true
    ∧ base.badStatic (.sectionEnd 0) = false
    ∧ (signalled.live = true ∧ signalled.Calm ∧ (signalled.output 1).drive = false
      ∧ signalled.driven 1 = false ∧ (signalled.output 1).failedMark = false
      ∧ (signalled.leverCfg 1).controlOutput = some 32 ∧ (signalled.output 32).command = true
      ∧ (signalled.lever 1).position = .reverse) := by decide +kernel
/-- R31, R146: the urgent fault drops the control, which sets the latch. -/
theorem test_fault_sets_latch : ((after (.outputReadback 1) signalled).lever 1).latch = true := by
  decide +kernel
theorem witness_FurtherUrgentLocksDown : (at_ .restrictive).live = true ∧ (at_ .restrictive).Calm
    ∧ ((at_ .restrictive).output 47).drive = false ∧ (at_ .restrictive).driven 47 = false
    ∧ ((at_ .restrictive).output 47).failedMark = false
    ∧ (at_ .restrictive).service = .restrictive := by decide +kernel
def driven : State := signalled.updOutput 0 fun o => { o with drive := true }
theorem witness_LockSilenceContained : driven.live = true ∧ driven.Calm ∧ driven.service ≠ .lockdown
    ∧ (at_ .proving).provingHolds = false
    ∧ (driven.output 0).drive = true ∧ driven.driven 0 = true ∧ (driven.output 0).notEnergized = false
    ∧ base.driven 0 = false
    ∧ ((driven.updOutput 0 fun o => { o with notEnergized := true }).output 0).notEnergized = true
    ∧ driven.records.notices.length < 32 := by decide +kernel
/-- Lane A has answered expression 6 wrongly since own time 0. -/
def disagreeing : State :=
  { base with lanes := upd base.lanes 5 fun l => { l with since := some 0 }, laneErrA := 32 }
theorem witness_LaneDisagreementUrgent : disagreeing.live = true ∧ disagreeing.Calm
    ∧ (5 : ExprNo).val < disagreeing.cfg.exprs.length
    ∧ disagreeing.service = .inService ∧ (look disagreeing.lanes 5).since = some 0
    ∧ (look disagreeing.lanes 5).laneFailed = false
    ∧ disagreeing.laneErrA.getLsbD 5 ≠ disagreeing.laneErrB.getLsbD 5 := by decide +kernel

theorem witness_OutputLawKept :
    (signalled.withPending [.timeTick]).OutputLaw
      ∧ step (signalled.withPending [.timeTick]) = .next (after .timeTick signalled) := by
  refine ⟨⟨fun n h => ⟨1, ?_⟩, by decide +kernel⟩, rfl⟩
  have hn : n = 0 ∨ n = 32 := by revert h; revert n; decide +kernel
  rcases hn with rfl | rfl
  · refine ⟨by decide +kernel, ?_⟩
    rw [State.CommandAllowed, if_pos (by decide)]
    refine ⟨.inl rfl, fun h => absurd h (by decide +kernel), fun _ => by decide +kernel,
      fun h => absurd h (by decide +kernel), by decide +kernel⟩
  · refine ⟨by decide +kernel, ?_⟩
    rw [State.CommandAllowed, if_neg (by decide)]
    exact ⟨rfl, by decide +kernel, by decide +kernel, by decide +kernel⟩

/-- The station with one record poisoned. -/
def poisoned (r : RecordId) : State := base.updIntegrity fun g => { g with poisoned := [r] }
theorem witness_PoisonMeetsNothing :
    (poisoned (.lever 63)).badLever 63 = true ∧ (poisoned (.channel 11)).badChannel 11 = true
    ∧ (poisoned (.sub 15)).isPoisoned (.sub 15) = true ∧ base.endCfg 0 = some endA
    ∧ (poisoned (.sectionRec 0)).isPoisoned (endA.viewRecord 0) = true
    ∧ (poisoned (.release 5)).isPoisoned (.release 5) = true
    ∧ (poisoned (.timer 7)).isPoisoned (.timer 7) = true
    ∧ (poisoned (.fixed (.expr 79))).badStatic (.expr 79) = true
    ∧ (poisoned (.fixed (.sub 0))).badStatic (.sub 0) = true
    ∧ (poisoned (.fixed (.timer 7))).badStatic (.timer 7) = true
    ∧ (poisoned .switch).isPoisoned .switch = true := by decide +kernel
/-- Every record sound: an owned end, a far end and an end that is not there, a subscription and none, an
expression with no terms, one with terms, and a number that the table does not hold. -/
theorem witness_conditions_on_sound_records :
    (base.badLever 63 = false ∧ base.badChannel 11 = false ∧ look base.cfg.subs 0 = some ⟨2, 3⟩
      ∧ base.badStatic (.sub 0) = false ∧ base.isPoisoned (.sub 0) = false
      ∧ look base.cfg.subs 15 = none)
    ∧ (base.endCfg 0 = some endA ∧ base.isPoisoned (endA.viewRecord 0) = false
      ∧ base.endCfg 1 = some endB ∧ base.isPoisoned (endB.viewRecord 1) = false
      ∧ base.endCfg 5 = none ∧ base.isPoisoned (.release 5) = false)
    ∧ (base.badStatic (.timer 7) = false ∧ base.isPoisoned (.timer 7) = false
      ∧ base.isPoisoned .switch = false)
    ∧ (base.cfg.exprs[0]? = exprsA[0]? ∧ base.cfg.exprs[4]? = some ⟨3, .normal, []⟩
      ∧ base.cfg.exprs[79]? = none ∧ ∀ x : ExprNo, base.badStatic (.expr x) = false) := by
  decide +kernel
/-- R41, R50: section 10's starting signal holds over a CONSUMED release and a sound view with track 7 CLEAR, and
not over the same under obstruction. -/
theorem test_control_judged : (trackSeven (leverHeld .reverse none)).judge 2 = true
    ∧ ((trackSeven (leverHeld .reverse none)).updView 0 fun v => { v with obstruction := true }).judge 2
      = false := by decide +kernel
/-- A bell key's record at E1 with its contact as given. -/
def bellKey (closed : Bool) (p : KeyPhase) (a : Option Assembly) : State :=
  base.updBell 0 fun b => { b with keyIn := ⟨closed, 0⟩, phase := p, code := a }
/-- A beat pressed within Gsep of the last release, whose closure outlasts Gend. -/
def longBeat : State := (bellKey true (.pressed 10000) (some ⟨[3], false, 0⟩)).reach 90000
/-- The bounds of a code; a press in IDLE, in GAP before Gend and after it, and in HOLD OFF; a release of a
closure too short, one of a beat, one that is stuck, and one in HOLD OFF. -/
theorem witness_BeatLimits : (codeFits [9] = true ∧ codeFits [9, 7] = true
    ∧ (⟨[9], true, 0⟩ : Assembly).overlong = true ∧ 16 ≤ (⟨[9, 7], false, 0⟩ : Assembly).groups.sum
    ∧ (⟨[9, 7], false, 0⟩ : Assembly).overlong = false
    ∧ (⟨[1, 1, 1, 1, 9], false, 0⟩ : Assembly).groups = [1, 1, 1, 1] ++ [9]
    ∧ (⟨[1, 1, 1, 1, 9], false, 0⟩ : Assembly).groups.sum < 16 ∧ 0 + 21600 ≤ 21600)
    ∧ (base.working = true ∧ base.scanned = true ∧ base.Calm ∧ base.endCfg 0 = some endA
      ∧ max base.clock (base.scanAt + 240) = 240 ∧ 48 * base.gend = 72000)
    ∧ ((bellKey false .idle none).bell 0).phase = .idle
    ∧ ((bellKey false .gap (some ⟨[3], false, 0⟩)).bell 0).code = some ⟨[3], false, 0⟩
    ∧ ((bellKey false .gap (some ⟨[3], false, 0⟩)).reach 72000).takesAt 0 = true
    ∧ ((bellKey true (.pressed 0) none).bell 0).keyIn.closed = true
    ∧ 240 < 0 + 1440 ∧ (0 + 1440 ≤ 96000 - 1 ∧ 96000 - 1 < 0 + 96000) ∧ 0 + 96000 ≤ 96000
    ∧ ((longBeat.bell 0).phase = .pressed 10000 ∧ (longBeat.bell 0).code = some ⟨[3], false, 0⟩
      ∧ longBeat.working = true ∧ longBeat.scanned = true ∧ longBeat.Calm
      ∧ max longBeat.clock (longBeat.scanAt + 240) = 90000 ∧ 10000 < 0 + 48 * longBeat.gsep
      ∧ 0 + 48 * longBeat.gend ≤ 90000 ∧ 10000 + 1440 ≤ 90000 ∧ 90000 < 10000 + 96000) := by
  decide +kernel
/-- R57: that beat is added to the last group (log entry 63). -/
theorem test_long_beat : ((after (.takenChange (.bellKey 0)) longBeat).bell 0).code
    = some ⟨[4], false, 90000⟩ := by decide +kernel
/-- The code 3, 1 held in GAP at E1, and a queue with no place for a single telegram. -/
def held : State := bellKey false .gap (some ⟨[3, 1], false, 0⟩)
def full (s : State) : State :=
  (s.reach 72000).updLine fun u => { u with queue := List.replicate 9 ⟨0, .failed [], none⟩ }
/-- R58, R64: a press after Gend hands the code over first and clears the lost flag. -/
theorem test_press_after_end :
    (after (.takenChange (.bellKey 0)) (held.reach 72000)).line.queue.map (·.body)
      = [.bell ⟨10, false, false, [3, 1]⟩]
    ∧ ((after (.takenChange (.bellKey 0)) (full held)).bell 0).lost = false := by decide +kernel

/-- An entry of the code table matches a code. -/
def matching (s : State) (groups : List Nat) (k : CodeNo) : Bool :=
  match look s.cfg.codes k with
  | some c => patternMatches c.pattern groups
  | none => false
theorem witness_FirstMatchDecides :
    (look base.cfg.codes 7 = some ⟨[some 3, some 2], .offer 3⟩ ∧ matching base [3, 2] 7 = true
      ∧ (∀ j : CodeNo, j.val < 7 → matching base [3, 2] j = false)
      ∧ ∀ j : CodeNo, j.val ≤ 7 → base.badStatic (.code j) = false)
    ∧ (∀ j : CodeNo, matching base [9, 9] j = false)
    ∧ ((poisoned (.fixed (.code 6))).badStatic (.code 6) = true
      ∧ ∀ j : CodeNo, j.val < 6 → matching (poisoned (.fixed (.code 6))) [3, 2] j = false) := by
  decide +kernel
theorem witness_BellMoments : base.working = true ∧ base.Calm
    ∧ ((base.updBell 5 fun b => { b with phase := .pressed 9 }).bell 5).phase = .pressed 9
    ∧ ((base.updBell 0 fun b => { b with phase := .holdOff (some 9) }).bell 0).phase
      = .holdOff (some 9)
    ∧ ((base.updBell 0 fun b => { b with outstanding := some ⟨3, 9⟩ }).bell 0).outstanding
      = some ⟨3, 9⟩
    ∧ ((base.updBell 0 fun b => { b with offer := some ⟨3, 9⟩ }).bell 0).offer = some ⟨3, 9⟩ := by
  decide +kernel

/-- The code 3, 2 assembled on E1. -/
def keyed : State :=
  base.updBell 0 fun b => { b with phase := .gap, code := some ⟨[3, 2], false, 83520⟩ }
theorem witness_CodeEndSendsBell : keyed.working = true ∧ keyed.Calm ∧ (keyed.bell 0).phase = .gap
    ∧ (keyed.bell 0).code = some ⟨[3, 2], false, 83520⟩ ∧ keyed.endCfg 0 = some endA
    ∧ keyed.takesSingle = true ∧ keyed.badStatic (.sectionEnd 0) = false
    ∧ keyed.meaning [3, 2] false = .offer 3
    ∧ (keyed.updBell 0 fun b => { b with code := some ⟨[7], false, 0⟩ }).meaning [7] false = .obstruction
    ∧ (full keyed).takesSingle = false := by decide +kernel
/-- The code 3, 2 in the replay queue, k strokes started. -/
def ringing (k : Nat) (u : Option Nat) : State :=
  { base with replay := ⟨[⟨0, [3, 2]⟩], k, 0, u, 0⟩ }
theorem witness_StrokesRing :
    (ringing 4 none).working = true ∧ base.Calm ∧ (ringing 4 none).replay.codes = [⟨0, [3, 2]⟩]
    ∧ (ringing 4 none).replay.ringingUntil = none
    ∧ (ringing 4 none).replay.started < [3, 2].sum
    ∧ (ringing 5 (some 2880)).replay.ringingUntil = some 2880 := by decide +kernel

/-! ### Received telegrams -/

theorem witness_listening : base.Listening := by decide +kernel
theorem witness_for_us : base.ForUs ⟨1, 2⟩ 2 ∧ base.ForUs ⟨0, 15⟩ 15 := by decide +kernel
theorem witness_shares : base.Shares 2 10 0 endA ∧ base.Shares 3 11 1 endB := by decide +kernel

/-- E1 OCCUPIED OUTWARD, its train to be given out as arrived by station 2. -/
def outward : State :=
  base.updView 0 fun v => { v with state := .occupied, dir := .outward, cls := some 3 }
/-- A request of E2 pending under number 40, its deadline a second away. -/
def asking : State :=
  base.updView 1 fun v => { v with pending := some ⟨.arrived, 40, 480000, .commutator⟩ }

/-- The same, switched out, and with a full queue; a code in the limits that offers a train or hands on an
obstruction, and one outside them. -/
theorem witness_BellQueuedForRinging : base.Listening ∧ base.ForUs ⟨1, 2⟩ 2
    ∧ base.Shares 2 10 0 endA ∧ (Telegram.bell ⟨10, false, false, [3, 2]⟩).fits = true
    ∧ codeFits [3, 2] = true ∧ codeFits [10] = false
    ∧ base.meaning [3, 2] false = .offer 3 ∧ base.meaning [7] false = .obstruction
    ∧ base.switchedOut = false
    ∧ (let s := base.updSwitch fun w => { w with state := .out }
      s.Listening ∧ s.Shares 2 10 0 endA ∧ s.switchedOut = true ∧ s.partner 0 = some 1
        ∧ s.endCfg 1 = some endB ∧ s.takesAt 1 = true
        ∧ (s.updLine fun u => { u with
          queue := List.replicate 9 ⟨0, .failed [], none⟩ }).takesAt 1 = false) := by
  decide +kernel
/-- R67: an offer record is set with its class and the time of reception. -/
theorem test_offer_received : (fun t : State => ((t.bell 0).offer, t.records.notices.map (·.kind),
      t.records.register.map (·.info.kind)))
    (after (.bellReceived ⟨1, 2⟩ ⟨10, false, false, [3, 2]⟩) base)
    = (some ⟨3, base.heardAt ((Telegram.bell ⟨10, false, false, [3, 2]⟩).chars ⟨1, 2⟩)⟩, [.offer],
      [.bellReceived]) := by
  decide +kernel
/-- Station 2 marked as in LOCKDOWN. -/
def marked2 : State := base.updStation 2 fun r => { r with lockdown := true }
theorem witness_EndReportTaken : base.Listening ∧ base.ForUs ⟨0, 2⟩ 2
    ∧ (Telegram.endReport ⟨.inService, .inn, [⟨10, some .blocked, .none, 0, false⟩],
      [(3, .clear)]⟩).fits = true ∧ (base.stationRec 2).lockdown = false
    ∧ look base.cfg.subs 0 = some ⟨2, 3⟩ ∧ base.badStatic (.sub 0) = false
    ∧ look base.cfg.subs 15 = none
    ∧ (base.endCfg 0 = some endA ∧ endA.neighbour = 2 ∧ endA.owner = true ∧ endA.section_ = 10)
    ∧ (marked2.Listening ∧ marked2.ForUs ⟨0, 2⟩ 2 ∧ (marked2.stationRec 2).lockdown = true
      ∧ (Telegram.endReport ⟨.lockdown, .inn, [], []⟩).fits = true) := by decide +kernel
theorem witness_FailedTaken : base.Listening ∧ base.ForUs ⟨0, 3⟩ 3
    ∧ (Telegram.failed [11]).fits = true ∧ (base.stationRec 3).lockdown = false
    ∧ base.endCfg 1 = some endB ∧ endB.neighbour = 3 ∧ endB.owner = false
    ∧ base.endCfg 0 = some endA ∧ endA.neighbour ≠ 3 := by decide +kernel
/-- Nine single telegrams queued. -/
def jammed : State := base.updLine fun u => { u with
  queue := List.replicate 9 ⟨2, .bell ⟨10, false, false, [1]⟩, some 0⟩ }
theorem witness_OpenTaken : base.Listening ∧ base.ForUs ⟨0, 2⟩ 2
    ∧ (Telegram.opening [⟨10, false, 0⟩]).fits = true ∧ base.endCfg 0 = some endA
    ∧ endA.neighbour = 2 ∧ endA.owner = true
    ∧ ((base.updView 0 fun v => { v with state := .clear }).view 0).state = .clear
    ∧ base.ForUs ⟨0, 3⟩ 3 ∧ base.endCfg 1 = some endB ∧ endB.owner = false
    ∧ base.badStatic (.sectionEnd 0) = false ∧ base.line.singles + (base.endsWith 2).length ≤ 9
    ∧ base.records.notices.length < 18
    ∧ (jammed.Listening ∧ jammed.ForUs ⟨0, 2⟩ 2 ∧ 9 ≤ jammed.line.singles) := by decide +kernel
theorem witness_OpenAckTaken : base.Listening ∧ base.ForUs ⟨1, 3⟩ 3 ∧ base.Shares 3 11 1 endB
    ∧ (Telegram.openAck ⟨11, true, .blocked, .none⟩).fits = true ∧ endB.owner = false
    ∧ base.ForUs ⟨1, 2⟩ 2 ∧ base.Shares 2 10 0 endA ∧ endA.owner = true := by decide +kernel
/-- An entry to CLEAR toward station 3 under number 17 that makes E2's release AVAILABLE, and a view that
leaves none. -/
theorem witness_SectionStateTaken : base.Listening ∧ base.ForUs ⟨1, 3⟩ 3
    ∧ base.Shares 3 11 1 endB ∧ endB.owner = false
    ∧ (Telegram.sectionState ⟨11, .clear, .inward, 17, some 2, false, false, some ⟨40, .taken⟩⟩).fits
      = true
    ∧ (Telegram.sectionState ⟨11, .blocked, .none, 17, none, false, false, none⟩).fits = true
    ∧ (endB.canRear = true ∧ endB.releaseLever = some 3 ∧ base.service = .inService
      ∧ base.switch.state = .inn ∧ (base.release 1).state = .none
      ∧ ((base.updLever 3 fun v => { v with position := .normal }).lever 3).position = .normal
      ∧ base.badLever 3 = false ∧ base.badStatic (.sectionEnd 1) = false
      ∧ base.isPoisoned (.mirror 1) = false ∧ Direction.inward = endB.away
      ∧ (base.view 1).clearUnder 17 = false ∧ (base.view 1).localObs = .clear)
    ∧ ((base.updEnd 1 fun d => { d with release := ⟨.consumed, 17, none⟩ }).release 1).state
      = .consumed := by
  decide +kernel
/-- R98: a CONSUMED release stands while the mirror shows CLEAR under its number, toward this end too. -/
theorem test_release_stands : (after (.sectionStateReceived ⟨1, 3⟩
      ⟨11, .clear, .outward, 17, some 2, false, false, none⟩)
    (base.updEnd 1 fun d => { d with release := ⟨.consumed, 17, none⟩ })).release 1
    = ⟨.consumed, 17, none⟩ := by decide +kernel
/-- R96: the release of that entry. -/
theorem test_release_granted : (after (.sectionStateReceived ⟨1, 3⟩
      ⟨11, .clear, .inward, 17, some 2, false, false, none⟩)
    (base.updLever 3 fun v => { v with position := .normal })).release 1 = ⟨.available, 17, none⟩ := by
  decide +kernel
/-- E1 and E2 with a view and a release. -/
def asked (st : SecState) (d : Direction) (r : Release) : State :=
  (base.updEnd 0 fun x => { x with
    view := { x.view with state := st, dir := d, cls := some 3 }, release := r }).updEnd 1 fun x =>
    { x with release := r }
theorem witness_ArrivedRequestDecided :
    (base.Listening ∧ base.ForUs ⟨1, 2⟩ 2 ∧ base.Shares 2 10 0 endA ∧ endA.owner = true
      ∧ (Telegram.request ⟨10, 255, .arrived, 0⟩).fits = true
      ∧ (Telegram.request ⟨10, 255, .accept, 3⟩).fits = true
      ∧ (Telegram.request ⟨10, 255, .occupy, 0⟩).fits = true
      ∧ (Telegram.request ⟨10, 255, .cancel, 0⟩).fits = true ∧ base.service = .inService
      ∧ base.badStatic (.sectionEnd 0) = false ∧ base.takesSingle = true)
    ∧ (base.ForUs ⟨1, 3⟩ 3 ∧ base.Shares 3 11 1 endB ∧ endB.owner = false
      ∧ (Telegram.request ⟨11, 0, .cancel, 0⟩).fits = true)
    ∧ ((asked .occupied .outward Release.none).view 0).dir = .outward
    ∧ ((asked .clear .outward ⟨.consumed, 0, some 0⟩).release 0).normalAt = some 0
    ∧ (endA.kind = .twoWay ∧ endA.releaseLever = some 1) := by decide +kernel
/-- R101, R104, R112: an ACCEPT granted, and a CANCEL refused while the release is CONSUMED. -/
theorem test_requests :
    ((after (.requestReceived ⟨1, 2⟩ ⟨10, 5, .accept, 3⟩) ((asked .blocked .none Release.none).updLever 1
      fun v => { v with position := .normal })).view 0).cls = some 3
    ∧ ((after (.requestReceived ⟨1, 3⟩ ⟨11, 5, .cancel, 0⟩)
        (asked .clear .outward ⟨.consumed, 0, none⟩)).line.queue.map (·.body)).head?
      = some (.answer ⟨11, 5, .refused .releaseUsed⟩) := by decide +kernel
theorem witness_AnswerSettles : asking.Listening ∧ asking.ForUs ⟨1, 3⟩ 3
    ∧ asking.Shares 3 11 1 endB ∧ (Telegram.answer ⟨11, 40, .taken⟩).fits = true
    ∧ (asking.view 1).pending = some ⟨.arrived, 40, 480000, .commutator⟩
    ∧ (asking.view 1).autoCancel = false ∧ (asking.view 1).proof = none
    ∧ asking.heardAt ((Telegram.answer ⟨11, 40, .taken⟩).chars ⟨1, 3⟩) ≤ 480000
    ∧ (40 ≠ 41 ∨ ReqKind.arrived = .accept ∧ Outcome.taken = .taken) := by decide +kernel
/-- An END REPORT that names station 1, this station, as its source. -/
def clash : List Byte := (Telegram.endReport ⟨.inService, .inn, [], []⟩).chars ⟨0, 1⟩
/-- This station has begun at 500 and stopped at the ninth bit of those characters, as another went on. -/
def stopped : State := base.updLine fun u => { u with cut := some ⟨500, (lineBits clash).take 9⟩ }
/-- R77: the telegram that went on takes its time from the moment at which both began. -/
theorem test_heard_whole : stopped.gapAfter clash = 500 + 5 * (10 * clash.length + 20) := by
  decide +kernel
theorem witness_ClashAndDiscard : stopped.power ≠ .held ∧ stopped.line.sending = none
    ∧ stopped.Calm ∧ (lineBits clash).take 9 <+: lineBits clash
    ∧ base.Calm ∧ base.line.cut = none ∧ stopped.working = true ∧ stopped.mute = false
    ∧ parseTelegram clash = some (⟨0, 1⟩, .endReport ⟨.inService, .inn, [], []⟩)
    ∧ base.working = true ∧ base.mute = false
    ∧ parseTelegram [0xC3, 7] = none := by decide +kernel

/-! ### The line, sections and switching -/

def ack : TxEntry := ⟨2, .openAck ⟨10, true, .blocked, .none⟩, some 0⟩
def queued : TxEntry := ⟨2, .request ⟨10, 7, .arrived, 0⟩, some 0⟩
/-- A REQUEST at the head of the queue, its transmission begun at 0 or not, and its attempt count. -/
def sendingAt (x : Option Sending) (n : Nat) : State :=
  base.updLine fun u => { u with queue := [queued], sending := x, attempt := n }
/-- The same in its eighth attempt, the REQUEST pending. -/
def lostRequest : State :=
  (sendingAt (some ⟨queued, 0, false⟩) 7).updView 0 fun v =>
    { v with pending := some ⟨.arrived, 7, 480000, .commutator⟩ }
theorem witness_LineSending :
    ((sendingAt none 0).line.queue = [queued] ∧ (sendingAt none 0).transmits = true
      ∧ (sendingAt none 0).line.sending = none)
    ∧ ((sendingAt (some ⟨queued, 0, false⟩) 6).line.sending = some ⟨queued, 0, false⟩
      ∧ (sendingAt (some ⟨queued, 0, false⟩) 6).line.attempt < 7
      ∧ (sendingAt (some ⟨queued, 0, false⟩) 6).Calm)
    ∧ ((sendingAt (some ⟨queued, 0, false⟩) 7).line.sending = some ⟨queued, 0, false⟩
      ∧ 7 ≤ (sendingAt (some ⟨queued, 0, false⟩) 7).line.attempt
      ∧ (sendingAt none 0).records.notices.length < 32
      ∧ (sendingAt none 0).Calm ∧ (sendingAt none 0).endCfg 0 = some endA
      ∧ ((lostRequest.view 0).pending = some ⟨.arrived, 7, 480000, .commutator⟩
        ∧ (lostRequest.view 0).autoCancel = false ∧ (lostRequest.view 0).proof = none)
      ∧ ack.endNo = some 0) := by
  decide +kernel
/-- R78, R86: an OPEN ACK discarded at its eighth collision is owed for 2 s later. -/
theorem test_ack_owed :
    ((((sendingAt (some ⟨ack, 0, false⟩) 7).updLine fun u => { u with queue := [ack] }).collideAt
      ⟨ack, 0, false⟩ ack 8).lineEnd 0).owedAck = some ⟨some (8 * 5 + 96000), true⟩ := by decide +kernel
/-- R78: the eighth collision discards the head, and the REQUEST it carried lapses. -/
theorem test_eighth_collision :
    (fun t : State => (t.line.queue.all (·.body.coalesces), (t.view 0).pending, t.line.attempt))
      (lostRequest.collideAt ⟨queued, 0, false⟩ queued 9) = (true, none, 0) := by decide +kernel
theorem witness_QueueLawKept :
    ((sendingAt (some ⟨queued, 0, false⟩) 0).withPending [.transmitSuccess]).QueueLaw
    ∧ step ((sendingAt (some ⟨queued, 0, false⟩) 0).withPending [.transmitSuccess])
      = .next (after .transmitSuccess (sendingAt (some ⟨queued, 0, false⟩) 0)) := by
  refine ⟨⟨by decide +kernel, ?_, by decide +kernel⟩, rfl⟩
  intro q hq
  rw [show q = queued from List.mem_singleton.mp hq]
  exact trivial
theorem witness_QueueHoldsSixteen : (sendingAt none 0).QueueLaw := by
  refine ⟨by decide +kernel, ?_, by decide +kernel⟩
  intro q hq
  rw [show q = queued from List.mem_singleton.mp hq]
  exact trivial
/-- Telegrams to be offered again at E1. -/
def owing : State :=
  base.updLine fun u => { u with
    owedOpen := some ⟨some 96000, true⟩
    ends := upd u.ends 0 fun x => { x with
      echo := some ⟨⟨40, .taken⟩, 0⟩, owedAck := some ⟨some 96000, false⟩ } }
/-- Both freshnesses fresh: station 2's END REPORT, and the mirror at E2. -/
def fresh : State :=
  base.updLine fun u => { u with
    stations := upd u.stations 2 fun _ => ⟨some 0, true, false, some .inService⟩
    ends := upd u.ends 1 fun x => { x with stateAt := some 0, fresh := true } }
theorem witness_FreshnessEnds : fresh.working = true ∧ fresh.Calm
    ∧ (fresh.stationRec 2).reportAt = some 0 ∧ (fresh.stationRec 2).fresh = true
    ∧ (fresh.lineEnd 1).stateAt = some 0 ∧ (fresh.lineEnd 1).fresh = true
    ∧ fresh.records.notices.length < 24
    ∧ (fresh.endCfg 0 = some endA ∧ endA.neighbour = 2 ∧ endA.owner = true)
    ∧ (owing.working = true ∧ owing.Calm ∧ owing.mute = false
      ∧ owing.endCfg 0 = some endA ∧ endA.owner = true ∧ (∀ e, owing.badStatic (.sectionEnd e) = false)
      ∧ (owing.lineEnd 0).echo = some ⟨⟨40, .taken⟩, 0⟩
      ∧ (owing.lineEnd 0).owedAck = some ⟨some 96000, false⟩
      ∧ owing.line.owedOpen = some ⟨some 96000, true⟩ ∧ owing.takesSingle = true) := by decide +kernel
/-- R85, R86: the refresh and the owed telegrams are in the queue. -/
theorem test_owed : ((after (.owedReoffer (.ack 0)) owing).line.queue,
      (after .endReportRefresh owing).line.queue.map (·.body))
    = ([⟨2, .openAck ⟨10, false, .closed, .none⟩, some 0⟩], [.endReport base.report]) := by
  decide +kernel
def waiting : Proof := ⟨2, false, some 2880000, false, false, false, none⟩
/-- A train in section 10, its arrival release given. -/
def released : State :=
  base.updView 0 fun v =>
    { v with state := .occupied, dir := .inward, cls := some 3, proof := some waiting }
theorem witness_DeadlinesPass : asking.working = true ∧ asking.Calm ∧ asking.endCfg 1 = some endB
    ∧ (asking.view 1).pending = some ⟨.arrived, 40, 480000, .commutator⟩
    ∧ (asking.view 1).autoCancel = false ∧ (asking.view 1).proof = none
    ∧ released.endCfg 0 = some endA ∧ released.working = true
    ∧ (released.view 0).proof = some waiting ∧ waiting.waitUntil = some 2880000
    ∧ released.switchedOut = false := by decide +kernel
/-- E2's mirror CLEAR with the auto-cancel mark, its CANCEL to be made again. -/
def cancelling : State :=
  base.updView 1 fun v =>
    { v with state := .clear, dir := .outward, cls := some 2, autoCancel := true
             cancelRetry := some 96000 }
def arrived : Proof := ⟨2, true, none, false, false, true, some 96000⟩
/-- Switched out, a train proved in section 11, its ARRIVED to be made again. -/
def arriving : State :=
  ((fresh.updSwitch fun w => { w with state := .out }).updView 1 fun v =>
    { v with state := .occupied, dir := .outward, cls := some 2, proof := some arrived })
theorem witness_RetriesMakeRequests :
    (cancelling.working = true ∧ cancelling.Calm ∧ cancelling.badStatic (.sectionEnd 1) = false
      ∧ cancelling.endCfg 1 = some endB ∧ cancelling.takesSingle = true
      ∧ (cancelling.view 1).pending = none ∧ (cancelling.view 1).cancelRetry = some 96000
      ∧ (cancelling.view 1).autoCancel = true)
    ∧ (arriving.working = true ∧ arriving.Calm ∧ arriving.endCfg 1 = some endB ∧ arriving.takesSingle = true
      ∧ (arriving.view 1).pending = none ∧ (arriving.view 1).proof = some arrived
      ∧ arrived.complete = true ∧ arrived.retryAt = some 96000 ∧ endB.owner = false
      ∧ (arriving.view 1).state = .occupied ∧ (arriving.view 1).dir = endB.toHere
      ∧ arriving.autoArrives 1 = true ∧ (arriving.lineEnd 1).fresh = true) := by decide +kernel
def demandA : Demand := ⟨0, .waiting, 0, some .clearance, some 96000⟩
/-- Switched out: E2's release CONSUMED and its demand WAITING, an offer held at E1. -/
def demanding : State :=
  (((({ fresh with channels := upd fresh.channels 0 fun _ => clearCh }.updSwitch fun w =>
    { w with state := .out }).updView 1 fun v =>
    { v with state := .clear, dir := .inward, cls := some 2 }).updEnd 1 fun d =>
    { d with release := ⟨.consumed, 0, none⟩, demand := some demandA }).updView 0 fun v =>
    { v with state := .blocked, farStatus := some ⟨some .clear, .none, 0, false⟩ }).updBell 0 fun b =>
    { b with offer := some ⟨3, 0⟩ }
theorem witness_DemandRetryAccepts : demanding.working = true ∧ demanding.Calm ∧ demanding.switch.state = .out
    ∧ demanding.demand 1 = some demandA ∧ demandA.state = .waiting
    ∧ demandA.retryAt = some 96000 ∧ demanding.throughAccepting 1 = some 0
    ∧ demanding.endCfg 0 = some endA ∧ endA.owner = true
    ∧ demanding.badStatic (.sectionEnd 0) = false ∧ demanding.ownerChecks 0 endA false = none
    ∧ demanding.endCfg 1 = some endB ∧ demanding.releaseStands 1 endB = true
    ∧ (demanding.release 1).state = .consumed := by decide +kernel

/-- An offer at E1 and at E2, both BLOCKED, the levers NORMAL: trains may be accepted there. -/
def offering : State :=
  [(0 : EndNo), 1].foldl (fun s e => (s.updView e fun v => { v with
      state := .blocked, farStatus := some ⟨some .blocked, .none, 0, false⟩ }).updBell e fun b =>
      { b with offer := some ⟨3, 0⟩ })
    { fresh with
      channels := upd fresh.channels 0 fun _ => clearCh
      levers := Vector.replicate 64 { Lever.fresh with position := .normal } }
/-- The commutator of E1 and E2 away from BLOCKED, E1 and E2 with a view. -/
def viewing (st : SecState) (x : View → View) : State :=
  [(0 : EndNo), 1].foldl (fun s e => (s.updView e fun v => x { v with state := st }).updComm e fun k =>
    { k with pos := .occupied }) offering
/-- The premises of the moves: an acceptance granted, refused and asked; the gesture; an occupation taken,
asked and refused; an obstruction cleared; an opening made and refused; a cancellation; an arrival not
proven and proven; contacts closed together. -/
theorem witness_CommutatorMoves :
    (offering.working = true ∧ offering.scanned = true ∧ offering.Calm ∧ offering.service = .inService
      ∧ offering.switch.state = .inn ∧ offering.endCfg 0 = some endA ∧ offering.endCfg 1 = some endB
      ∧ endA.commutator = true ∧ endB.commutator = true
      ∧ offering.badStatic (.sectionEnd 0) = false ∧ offering.badStatic (.sectionEnd 1) = false
      ∧ (∀ p : CommPos, p ∈ [.blocked, .clear, .occupied] →
        ((offering.comm 0).flip p).contact = some p)
      ∧ (offering.comm 0).pos = .blocked
      ∧ ((viewing .blocked id).comm 0).pos = .occupied ∧ (offering.view 0).pending = none
      ∧ offering.takesAt 0 = true ∧ offering.takesAt 1 = true)
    ∧ (endA.canAccept = true ∧ endB.canAccept = true ∧ endA.owner = true ∧ endB.owner = false
      ∧ (offering.view 0).state = .blocked ∧ (offering.view 0).obstruction = false
      ∧ (offering.bell 0).offer = some ⟨3, 0⟩ ∧ endA.clearance.all offering.knownClear = true
      ∧ endA.homeLever = some 0 ∧ (offering.lever 0).position = .normal
      ∧ offering.badLever 0 = false ∧ (offering.stationRec endA.neighbour).fresh = true
      ∧ (offering.stationRec endA.neighbour).service = some .inService
      ∧ (offering.view 0).farStatus.map (·.release) = some .none
      ∧ base.ownerChecks 0 endA true = some .notBlocked
      ∧ offering.farChecks 1 endB true = none ∧ base.farChecks 1 endB true = some .farSilent)
    ∧ ((base.view 0).state = .closed ∧ endA.toHere = .inward ∧ endB.toHere = .outward
      ∧ ((viewing .clear fun v => { v with dir := .outward }).view 1).dir = endB.toHere
      ∧ (offering.lineEnd 1).fresh = true ∧ (base.lineEnd 1).fresh = false)
    ∧ (((viewing .closed fun v => { v with gesture := true, digest := .yes }).view 0).gesture = true
      ∧ ((viewing .blocked fun v => { v with obstruction := true }).view 0).obstruction = true
      ∧ ((viewing .occupied fun v => { v with dir := .inward, proof := some arrived }).view 0).proof
        = some arrived ∧ arrived.complete = true
      ∧ ((viewing .occupied fun v => { v with proof := some waiting }).view 0).proof = some waiting
      ∧ waiting.complete = false)
    ∧ (((offering.updComm 0 fun k => { k with clearIn := ⟨true, 0⟩ }).comm 0).flip .blocked).conflict
      = true ∧ (offering.comm 0).fault = false := by decide +kernel
/-- R102, R117: an acceptance at the owner, and the opening. -/
theorem test_moves : ((after (.takenChange (.commutator 0 .clear)) offering).view 0).cls = some 3
    ∧ ((after (.takenChange (.commutator 0 .blocked))
      (viewing .closed fun v => { v with gesture := true, digest := .yes })).view 0).state = .blocked := by
  decide +kernel
/-- R105, R110: an arrival not proven is refused and marked. -/
theorem test_move_refused : (fun t : State => ((t.view 0).refused, t.records.register.map (·.info.reason)))
    (after (.takenChange (.commutator 0 .blocked)) (viewing .occupied fun v =>
      { v with dir := .inward, proof := some waiting })) = (some .blockedMove, [some .notProven]) := by
  decide +kernel
/-- The pair's views BLOCKED and its levers REVERSE, the switch state and the key as given. -/
def switching (w : SwitchState) (k : Bool) : State :=
  { (offering.updSwitch fun x => { x with state := w, keyIn := ⟨k, 0⟩ }) with
    levers := Vector.replicate 64 { Lever.fresh with position := .reverse } }
theorem witness_SwitchingKey :
    ((switching .inn false).working = true ∧ (switching .inn false).scanned = true
      ∧ (switching .inn false).Calm ∧ (switching .inn false).hasPairs = true
      ∧ (switching .inn false).switch.keyIn.closed = false
      ∧ (switching .inn false).service = .inService
      ∧ (switching .inn false).pairCfg 0 = some ⟨0, 1, [1, 3]⟩ ∧ (switching .inn false).pairCfg 1 = none
      ∧ (∀ l ∈ [(1 : LeverNo), 3], (switching .inn false).atReverse l = true)
      ∧ (∀ e ∈ [(0 : EndNo), 1], (switching .inn false).badStatic (.sectionEnd e) = false
        ∧ ((switching .inn false).view e).state = .blocked
        ∧ ((switching .inn false).bell e).outstanding = none
        ∧ ((switching .inn false).view e).pending = none
        ∧ ((switching .inn false).release e).state = .none)
      ∧ (switching .inn false).staleView 0 endA = false
      ∧ (switching .inn false).staleView 1 endB = false)
    ∧ (base.switchRefusal = some (.notBlocked, 0) ∧ base.switch.state = .inn)
    ∧ ((switching .inPending false).switch.state = .inPending
      ∧ ∀ e ∈ (switching .inPending false).pairEnds,
        ((switching .inPending false).view e).state ≠ .closed)
    ∧ ((switching .out true).switch.keyIn.closed = true ∧ (switching .out true).switchInHolds = true
      ∧ (∀ e ∈ [(0 : EndNo), 1], (switching .out true).releaseStands e
        (if e = 0 then endA else endB) = true)
      ∧ ((switching .out true).updView 0 fun v => { v with state := .clear }).switchInHolds = false)
    ∧ ((base.updSwitch fun w => { w with state := .out }).switchedOut = true
      ∧ (0 : EndNo) ∈ base.pairEnds ∧ (base.view 0).state = .closed) := by
  refine ⟨⟨?_, ?_, ?_, ?_, ?_, ?_, ?_, ?_, ?_, ?_, ?_, ?_⟩, ?_, ?_, ?_, ?_⟩ <;> decide +kernel
/-- R126, R133: out by the key, and IN again at once by the key. -/
theorem test_switching : (after (.takenChange .switchKey) (switching .inn false)).switch.state = .out
    ∧ (after (.takenChange .switchKey) (switching .out true)).switch.cause = some .key := by
  decide +kernel
theorem witness_SwitchAndSectionLawsKept :
    ((switching .out true).withPending [.timeTick]).SwitchLaw
    ∧ ((leverAt false .mid none).withPending [.timeTick]).ReleaseLaw
    ∧ (offering.withPending [.timeTick]).SectionLaw
    ∧ step (offering.withPending [.timeTick]) = .next (after .timeTick offering)
    ∧ (after .timeTick offering).cfg.ends = offering.cfg.ends := by
  refine ⟨⟨fun _ => by decide +kernel, by decide +kernel⟩, ?_, ?_, rfl, rfl⟩
  · have h : ∀ e : EndNo, e = 0 ∨
        (((leverAt false .mid none).withPending [.timeTick]).release e).state = .none := by
      decide +kernel
    intro _ e c hc
    rcases h e with rfl | h
    · cases hc
      exact ⟨fun _ => by decide +kernel, fun hx => absurd hx (by decide +kernel)⟩
    · rw [h]
      exact ⟨nofun, nofun⟩
  · have h : ∀ e : EndNo, ((offering.withPending [.timeTick]).view e).dir = .none
        ∧ ((offering.withPending [.timeTick]).view e).cls = none
        ∧ (((offering.withPending [.timeTick]).view e).state = .closed
          ∨ ((offering.withPending [.timeTick]).view e).state = .blocked) := by decide +kernel
    intro e _ _ _
    exact ⟨⟨fun _ => (h e).2.2, fun _ => (h e).1⟩, ⟨fun _ => (h e).2.2, fun _ => (h e).2.1⟩⟩

/-! ### Integrity, records and the panel -/

/-- The scrubber come to a record. -/
def upTo (r : RecordId) : State :=
  base.updIntegrity fun g => { g with scrubAt := base.scrubOrder.idxOf r }
theorem witness_ScrubberVisits : base.live = true ∧ base.panel.command ≠ some .resume
    ∧ base.Calm ∧ base.scrubOrder[base.integrity.scrubAt]? = some (.fixed .station)
    ∧ base.badStatic .station = false ∧ base.service = .inService
    ∧ (RecordId.collars).isStatic = false ∧ base.isPoisoned .collars = false
    ∧ (upTo .collars).scrubOrder[(upTo .collars).integrity.scrubAt]? = some .collars
    ∧ look (upTo (.timer 0)).cfg.timers 0 = some ⟨1, .here 6, 120⟩
    ∧ (upTo (.timer 0)).scrubOrder[(upTo (.timer 0)).integrity.scrubAt]? = some (.timer 0)
    ∧ (upTo (.mirror 1)).scrubOrder[(upTo (.mirror 1)).integrity.scrubAt]? = some (.mirror 1)
    ∧ ((upTo (.demand 1)).scrubOrder[(upTo (.demand 1)).integrity.scrubAt]? = some (.demand 1)
      ∧ ((base.updEnd 1 fun d => { d with release := ⟨.consumed, 17, none⟩ }).release 1).state = .consumed
      ∧ ((base.updView 1 fun v => { v with state := .clear, acc := 17 }).view 1).clearUnder 17 = true)
    ∧ (∀ r ∈ [RecordId.queue, .switch, .key 1, .outstanding 0, .stationRec 2, .freshness 1, .sub 0],
      (upTo r).scrubOrder[(upTo r).integrity.scrubAt]? = some r)
    ∧ base.records.notices.length < 24 ∧ base.hasPairs = true
    ∧ (look base.cfg.timers 7 = none ∧ (RecordId.digest .station).isStatic = true
      ∧ ({ base with integrity := { base.integrity with digests := station.digests } }.scrubOrder.contains
        (.digest .station)) = true) := by
  decide +kernel
/-- R137: the collar set is read as a sample completes the proving condition, and its damage found. -/
theorem test_collars_read : (fun t : State => (t.service, t.integrity.report.map fun r => (r.item, r.op)))
    (after (.trackSample 0 (.valid ⟨800, by decide⟩)) (({ at_ .proving with
      channels := build 12 fun c => { Channel.fresh 12800 with settle := if c = 0 then 24 else 25 }
      levers := Vector.replicate 64 { Lever.fresh with position := .normal } }).updIntegrity fun g =>
        { g with damaged := [.collars] }))
    = (.restrictive, some (.record .collars, some .lockEvaluation)) := by decide +kernel
/-- R87, R137: the static record of a shared end is read as its neighbour becomes stale, and its damage found. -/
theorem test_stale_reads : (fun t : State => ((t.stationRec 2).fresh, t.integrity.report.map fun r => (r.item, r.op)))
    (after (.endReportStale 2) (fresh.updIntegrity fun g => { g with damaged := [.fixed (.sectionEnd 0)] }))
    = (false, some (.record (.fixed (.sectionEnd 0)), some .sectionUpdate)) := by decide +kernel
/-- R99, R137: a commutator's change reads whether the end has one. -/
theorem test_contact_reads : (after (.takenChange (.commutator 0 .clear)) (base.updIntegrity fun g =>
    { g with damaged := [.fixed (.sectionEnd 0)] })).integrity.poisoned = [.fixed (.sectionEnd 0)] := by
  decide +kernel
/-- R38, R148: in LOCKDOWN a scan verifies a lever record, poisons it, and reads its position on. -/
theorem test_lockdown_scan : (fun t : State => ((t.lever 1).position, t.integrity.poisoned))
    (after (.frameScan { quiet with leverN := 2 }) (((at_ .lockdown).updLever 1 fun v =>
      { v with contactsRead := true, position := .mid, nContact := ⟨false, 2⟩ }).updIntegrity fun g =>
        { g with damaged := [.lever 1] })) = (.normal, [.lever 1]) := by decide +kernel
/-- R139, section 8.1: a damaged transmit queue keeps what it can build anew and raises LINE BUSY. -/
theorem test_scrub_queue : (fun t : State => (t.line.queue.all fun q => q.body.coalesces,
      t.records.notices.map (·.kind)))
    (after (.scrubVisit [.queue]) ((upTo .queue).updLine fun u =>
      { u with queue := [⟨2, .bell ⟨10, false, false, [3]⟩, some 0⟩] })) = (true, [.lineBusy, .urgentFault]) := by
  decide +kernel
/-- R22, R139: a damaged lever record becomes UNKNOWN and its poison is cleared in the event. -/
theorem test_scrub_lever : (fun t : State => ((t.lever 1).position, t.integrity.poisoned, t.service))
    (after (.scrubVisit [.lever 1]) (upTo (.lever 1))) = (.unknown, [], .restrictive) := by
  decide +kernel
/-- A RESUME pass at its last record, with its return state and the poisoned record it has met. -/
def lastVisitTo (back : Service) (p : Option RecordId) : State :=
  ({ at_ .restrictive with integrity := { (at_ .restrictive).integrity with
    report := some ⟨.outputReadback, .output 0, some .lockEvaluation, .none, 0, false,
      some back, false, false, false⟩
    passAt := (at_ .restrictive).scrubOrder.length - 1, passPoisoned := p } }).updPanel
    fun u => { u with command := some .resume }
def lastVisit (p : Option RecordId) : State := lastVisitTo .loaded p
theorem witness_ResumePass :
    ((at_ .restrictive).live = true ∧ (at_ .restrictive).Calm
      ∧ (at_ .restrictive).panel.command = none ∧ (at_ .restrictive).service = .restrictive)
    ∧ ((lastVisit none).live = true ∧ (lastVisit none).Calm
      ∧ (lastVisit none).panel.command = some .resume
      ∧ (lastVisit none).integrity.passAt + 1 = (lastVisit none).scrubOrder.length
      ∧ (lastVisit none).returnState = some .loaded
      ∧ (lastVisit none).integrity.poisoned = [])
    ∧ (lastVisit (some .collars)).integrity.passPoisoned = some .collars
    ∧ ((lastVisitTo .proving none).returnState = some .proving
      ∧ (lastVisitTo .proving none).line.hasRoom = true
      ∧ (lastVisitTo .proving none).integrity.passPoisoned = none)
    ∧ ((lastVisit none).scrubOrder[(lastVisit none).integrity.passAt]?.any fun r =>
      ((lastVisit none).updIntegrity fun g => { g with poisoned := [r] }).isPoisoned r) = true := by
  decide +kernel
theorem witness_TimeOfDay : base.power ≠ .held ∧ base.records.time < 863999
    ∧ { base.records with time := 863999 }.time = 863999 ∧ base.power = .running
    ∧ base.service ≠ .lockdown ∧ base.panel.command = none ∧ 863999 < 864000
    ∧ 864000 ≤ 864000 := by decide +kernel
theorem witness_RegisterAndNoticesTaken :
    (List.replicate 255 0).length < 256 ∧ 256 ≤ (List.replicate 256 0).length
    ∧ (List.replicate 31 0).length < 32 ∧ 32 ≤ (List.replicate 32 0).length := by decide +kernel
theorem witness_RecordsBoundedKept :
    (base.withPending [.readStation]).RecordsBounded
    ∧ step (base.withPending [.readStation]) = .next (after .readStation base) :=
  ⟨by decide +kernel, rfl⟩
theorem witness_LoadingStages : bare.power = .running ∧ bare.panel.command = none
    ∧ bare.service = .unloaded ∧ (at_ .loading).service = .loading
    ∧ (at_ .loading).panel.command = none ∧ contentFits 5 [1, 1, 0, 0] = true
    ∧ StaticId.of 5 64 = some (.lever 63)
    ∧ (readCommand [13, 0, 0, 0] = none ∧ State.reset.power = .testing
      ∧ (commandFrame .restart).isSome = true ∧ Instr.restart.wellFormed = true
      ∧ Instr.restart ≠ .readStation ∧ (lastVisit none).power = .running
      ∧ (lastVisit none).panel.command ≠ none) := by decide +kernel
/-- The image staged and its checks begun. -/
def staged (d : Word) : State :=
  { bare with service := .loading }.updPanel fun p =>
    { p with staging := some (imageOf station), command := some (.loadEnd d) }
theorem test_station_passes : missing (imageOf station) = none
    ∧ firstBad (imageOf station) (·.inRange station) (·.item) = none
    ∧ station.reference (imageOf station) = none := by decide +kernel
theorem test_image_read : stagedConfig (imageOf station) = station := by decide +kernel
theorem image_passes : loadCheck (imageOf station) (imageDigest (imageOf station)) = none := by
  obtain ⟨h1, h2, h3⟩ := test_station_passes
  simp only [loadCheck, test_image_read, h1, h2, h3, bne_self_eq_false, Option.map_none]
  rfl
theorem witness_LoadEndDecides :
    (bare.power = .running ∧ (staged 0).service = .loading ∧ ∀ d, (staged d).panel.command
      = some (.loadEnd d))
    ∧ loadCheck ((staged (imageDigest (imageOf station))).panel.staging.getD [])
      (imageDigest (imageOf station)) = none
    ∧ loadCheck [] 0 = some (.digest, none) :=
  ⟨⟨rfl, rfl, fun _ => rfl⟩, image_passes, by decide +kernel⟩
theorem witness_EntersProving : (at_ .loaded).live = true ∧ (at_ .loaded).panel.command = none
    ∧ (at_ .loaded).Calm ∧ (at_ .loaded).reportSound = true ∧ (at_ .loaded).service = .loaded
    ∧ (at_ .loaded).line.queue = [] ∧ base.live = true ∧ base.Calm ∧ base.reportSound = true
    ∧ base.service = .inService ∧ (at_ .proving).service = .proving := by decide +kernel
def failedCh (f : Nat) : State :=
  withCh { clearCh with decision := .failed, cause := some .highValue, f := f }
def unproved : State :=
  base.updView 0 fun v =>
    { v with state := .occupied, dir := .inward
             proof := some ⟨1, false, none, false, false, false, none⟩ }
theorem witness_SignalmanCommands :
    (base.live = true ∧ base.service = .inService ∧ base.panel.command = none ∧ base.Calm
      ∧ base.maskLocked 10 = true ∧ base.maskLocked 5 = false ∧ (10 : BitVec 64).getLsbD 3 = true
      ∧ (10 : BitVec 64).getLsbD 63 = false)
    ∧ (((failedCh 16000).channel 0).decision = .failed
      ∧ (failedCh 16000).badStatic (.channel 0) = false
      ∧ ((failedCh 16000).channel 0).f ≤ highThreshold channelA ((failedCh 16000).channel 0).r)
    ∧ highThreshold channelA ((failedCh 16001).channel 0).r < ((failedCh 16001).channel 0).f
    ∧ (unproved.endCfg 0 = some endA
      ∧ (unproved.view 0).proof = some ⟨1, false, none, false, false, false, none⟩) := by
  decide +kernel
/-- Lever 64's static record poisoned in RESTRICTIVE, with a digest entry. -/
def toRepair (d : Word) : State :=
  (at_ .restrictive).updIntegrity fun g =>
    { g with poisoned := [.fixed (.lever 63)], digests := [(.lever 63, d)] }
/-- The digest entry of lever 64's static record poisoned in RESTRICTIVE. -/
def badDigest : State :=
  (at_ .restrictive).updIntegrity fun g =>
    { g with poisoned := [.digest (.lever 63)], digests := [(.lever 63, 0)] }
/-- A record's static part poisoned in RESTRICTIVE, its digest entry as its content has it. -/
def toRewrite (r : StaticId) (ct : List Byte) : State :=
  (at_ .restrictive).updIntegrity fun g =>
    { g with poisoned := [.fixed r], digests := [(r, recordDigest r ct)] }
theorem witness_RepairNeedsDigest :
    (toRepair (recordDigest (.lever 63) [0, 0, 0, 0])).live = true ∧ (toRepair 0).Calm
    ∧ (toRepair 0).service = .restrictive ∧ (toRepair 0).panel.command = none
    ∧ readLeverCfg [0, 0, 0, 0] = some ⟨none, none, none, none⟩
    ∧ (toRepair 0).badStatic (.lever 63) = true
    ∧ (toRepair 0).isPoisoned (.digest (.lever 63)) = false
    ∧ (toRepair (recordDigest (.lever 63) [0, 0, 0, 0])).digestOf (.lever 63)
      = some (recordDigest (.lever 63) [0, 0, 0, 0])
    ∧ (toRepair 0).digestOf (.lever 63) ≠ some (recordDigest (.lever 63) [0, 0, 0, 0])
    ∧ (StaticId.of 5 64 = some (.lever 63) ∧ StaticId.lever 63 ∈ (toRepair 0).cfg.statics
      ∧ contentFits 5 [0, 0, 0, 0] = true ∧ contentFits 5 [255, 0, 0, 0] = true
      ∧ readStatic (.lever 63) [255, 0, 0, 0] = none)
    ∧ ((toRewrite (.channel 0) (StaticContent.channel channelA).bytes).live = true
      ∧ StaticId.of 3 1 = some (.channel 0)
      ∧ StaticId.channel 0 ∈ (at_ .restrictive).cfg.statics
      ∧ contentFits 3 (StaticContent.channel channelA).bytes = true
      ∧ StaticId.of 19 1 = some (.sub 0) ∧ StaticId.sub 0 ∈ (at_ .restrictive).cfg.statics
      ∧ contentFits 19 [2, 3] = true)
    ∧ (badDigest.live = true ∧ badDigest.Calm ∧ badDigest.service = .restrictive
      ∧ badDigest.panel.command = none ∧ StaticId.of (1344 / 256) (1344 % 256) = some (.lever 63)
      ∧ StaticId.lever 63 ∈ badDigest.cfg.statics
      ∧ badDigest.contentOf (.lever 63) = some [0, 0, 0, 0]
      ∧ badDigest.isPoisoned (.digest (.lever 63)) = true
      ∧ badDigest.badStatic (.lever 63) = false ∧ (badDigest.digestOf (.lever 63)).isSome = true
      ∧ (0 : Word) ≠ recordDigest (.lever 63) [0, 0, 0, 0]) := by
  decide +kernel
/-- R141, R18: a digest entry is repaired with the digest of its record, and a channel's dynamic part begins anew
with its static part. -/
theorem test_repairs :
    ((after (.repairRecord 2 1344 (wordBytes (recordDigest (.lever 63) [0, 0, 0, 0])))
        badDigest).digestOf (.lever 63),
      (after (.repairRecord 3 1 (StaticContent.channel channelA).bytes)
        ((toRewrite (.channel 0) (StaticContent.channel channelA).bytes).updChannel 0 fun c =>
          { c with settle := 3 })).channel 0)
    = (some (recordDigest (.lever 63) [0, 0, 0, 0]), Channel.fresh channelA.rnom) := by
  decide +kernel
/-- R174: content that spells no lever is held as a repair carried it. -/
theorem test_stray_content :
    ((toRepair 0).writeStatic (.lever 63) [255, 0, 0, 0]).contentOf (.lever 63) = some [255, 0, 0, 0] := by
  decide +kernel
theorem witness_ReadsAnswered : base.power = .running ∧ base.panel.command = none ∧ base.Calm
    ∧ base.hasConfig = true ∧ base.service ≠ .unloaded ∧ base.service ≠ .loading
    ∧ base.endCfg 0 = some endA := by decide +kernel
theorem witness_ReadSizes :
    ((look station.pairs 0).map (·.levers.length) = some 2 ∧ look station.pairs 1 = none)
    ∧ (endA.clearance.length ≤ 4 ∧ endA.proving.length ≤ 3)
    ∧ (keyed.bell 0).code.map (·.groups.length) = some 2
    ∧ ((base.register (EventInfo.plain .bellSent)).records.register ≠ []
      ∧ ((base.register (EventInfo.plain .bellSent)).records.register.all
        fun x => x.info.groups.isNone) = true)
    ∧ (base.notify .trackBob 1).records.notices ≠ [] := by decide +kernel
theorem witness_FrameRoundTrip : (Instr.setTime 863999).wellFormed = true
    ∧ commandFrame (.setTime 863999) = some (frameOf 6 (three 863999)) := by decide +kernel
theorem witness_TelegramRoundTrip : (⟨0, 15⟩ : Header).wellFormed = true
    ∧ (Telegram.bell ⟨10, true, false, [9, 7]⟩).fits = true := by decide

end Sys2Proof.Tests
end

section
/-! The track sensing unit: one sample of one channel, apart from the station around it. -/

namespace Sys2Proof.TrackSensing

open Sys2Proof Sys2Proof.Machine

/-! ## The filter (R4) -/

/-- The change of F that the filter update makes, before it is brought to a natural number. -/
theorem tdiv_between {d m : Int} (hm : 0 < m) :
    (0 ≤ d → 0 ≤ Int.tdiv d m ∧ Int.tdiv d m ≤ d) ∧
      (d ≤ 0 → d ≤ Int.tdiv d m ∧ Int.tdiv d m ≤ 0) := by
  constructor
  · intro hd
    exact ⟨Int.tdiv_nonneg hd (Int.le_of_lt hm), by
      rw [Int.tdiv_eq_ediv_of_nonneg hd]; exact Int.ediv_le_self m hd⟩
  · intro hd
    have hn : 0 ≤ -d := by omega
    have h0 := Int.tdiv_nonneg hn (Int.le_of_lt hm)
    have h1 := Int.ediv_le_self m hn
    rw [← Int.tdiv_eq_ediv_of_nonneg hn] at h1
    rw [Int.neg_tdiv] at h0 h1
    omega

/-- The filter update without the return to a natural number, which loses nothing: F comes to lie between where
it was and 16 × S. -/
theorem filtered_cast (k f n : Nat) :
    (filtered k f n : Int) = f + Int.tdiv (16 * (n : Int) - f) (2 ^ k) := by
  have hm : (0 : Int) < 2 ^ k := Int.pow_pos (by decide)
  obtain ⟨hup, hdown⟩ := tdiv_between (d := 16 * (n : Int) - f) hm
  refine Int.toNat_of_nonneg ?_
  rcases Int.le_total 0 (16 * (n : Int) - f) with h | h
  · have := (hup h).1; omega
  · have := (hdown h).1; omega

theorem filtered_bounds (k f n : Nat) :
    (f ≤ 16 * n → f ≤ filtered k f n ∧ filtered k f n ≤ 16 * n) ∧
      (16 * n ≤ f → 16 * n ≤ filtered k f n ∧ filtered k f n ≤ f) := by
  have hc := filtered_cast k f n
  obtain ⟨hup, hdown⟩ := tdiv_between (d := 16 * (n : Int) - f) (m := 2 ^ k)
    (Int.pow_pos (by decide))
  constructor <;> intro h
  · have := hup (by omega); omega
  · have := hdown (by omega); omega

theorem filtered_zero (f n : Nat) : filtered 0 f n = 16 * n := by
  have hc := filtered_cast 0 f n
  simp only [Int.pow_zero, Int.tdiv_one] at hc
  omega

/-- The filter stops where D is shorter than 2 to the power k: the truncated quotient is 0. -/
theorem filtered_eq_iff (k f n : Nat) :
    filtered k f n = f ↔ (16 * (n : Int) - f).natAbs < 2 ^ k := by
  have hc := filtered_cast k f n
  have hq : Int.tdiv (16 * (n : Int) - f) (2 ^ k) = 0 ↔ (16 * (n : Int) - f).natAbs < 2 ^ k := by
    rw [← Int.natAbs_eq_zero, Int.natAbs_tdiv, Int.natAbs_pow]
    exact Nat.div_eq_zero_iff_lt (Nat.pow_pos (by decide))
  rw [← hq]
  omega

theorem filtered_le (k : Nat) {f n : Nat} (hf : f ≤ 16368) (hn : n ≤ 1023) :
    filtered k f n ≤ 16368 := by
  obtain ⟨hup, hdown⟩ := filtered_bounds k f n
  rcases Nat.le_total f (16 * n) with h | h
  · have := hup h; omega
  · have := hdown h; omega

/-! ## The decision (R8 to R11) -/

/-- What a decision leaves of the channel, whatever it decides. -/
theorem decide_frame (ch : Channel) (c : ChannelCfg) :
    (ch.decide c).1.f = ch.f ∧ (ch.decide c).1.r = ch.r ∧ (ch.decide c).1.clamp = ch.clamp ∧
      (ch.decide c).1.lowFeed = ch.lowFeed ∧ (ch.decide c).1.highFeed = ch.highFeed ∧
      (ch.decide c).1.settle = ch.settle := by
  unfold Channel.decide
  split
  · unfold Channel.decideClear Channel.fail; (repeat' split) <;> simp
  · unfold Channel.decideDropping; (repeat' split) <;> simp
  · unfold Channel.decideOccupied; (repeat' split) <;> simp
  · unfold Channel.decidePicking; (repeat' split) <;> simp
  · simp

/-- A decision that keeps the channel CLEAR leaves its interval count (R8). -/
theorem decide_interval (ch : Channel) (c : ChannelCfg) (hc : ch.decision = .clear)
    (hd : (ch.decide c).1.decision = .clear) : (ch.decide c).1.interval = ch.interval := by
  revert hd
  simp only [Channel.decide, hc, Channel.decideClear, Channel.fail]
  (repeat' split) <;> simp

/-- No decision makes a reference update or reports its feed. -/
theorem decide_events (ch : Channel) (c : ChannelCfg) :
    TrackEvent.reference ∉ (ch.decide c).2 ∧ TrackEvent.lowFeed ∉ (ch.decide c).2 ∧
      TrackEvent.highFeed ∉ (ch.decide c).2 := by
  unfold Channel.decide
  split
  · unfold Channel.decideClear; (repeat' split) <;> simp
  · unfold Channel.decideDropping; (repeat' split) <;> simp
  · unfold Channel.decideOccupied; (repeat' split) <;> simp
  · unfold Channel.decidePicking; (repeat' split) <;> simp
  · simp

/-! ## The reference update (R7) -/

/-- R as the reference update would have it without its bounds. -/
def referenceTarget (ch : Channel) : Int := (ch.r : Int) + Int.tdiv ((ch.f : Int) - ch.r) 16

theorem updateReference_low (ch : Channel) (c : ChannelCfg) (h : referenceTarget ch < c.rmin) :
    ch.updateReference c =
      ({ ch with r := c.rmin, clamp := .low, lowFeed := ch.lowFeed || ch.clamp != .low },
        .reference :: if ch.clamp == .low then [] else [.lowFeed]) :=
  if_pos h

theorem updateReference_high (ch : Channel) (c : ChannelCfg) (h : (c.rmin : Int) ≤ referenceTarget ch)
    (h' : (c.rmax : Int) < referenceTarget ch) :
    ch.updateReference c =
      ({ ch with r := c.rmax, clamp := .high, highFeed := ch.highFeed || ch.clamp != .high },
        .reference :: if ch.clamp == .high then [] else [.highFeed]) :=
  (if_neg (Int.not_lt.mpr h)).trans (if_pos h')

theorem updateReference_within (ch : Channel) (c : ChannelCfg)
    (h : (c.rmin : Int) ≤ referenceTarget ch) (h' : referenceTarget ch ≤ c.rmax) :
    ch.updateReference c =
      ({ ch with r := (referenceTarget ch).toNat, clamp := .none }, [.reference]) :=
  (if_neg (Int.not_lt.mpr h)).trans (if_neg (Int.not_lt.mpr h'))

/-- The three outcomes of the reference update. -/
theorem referenceTarget_cases (ch : Channel) (c : ChannelCfg) :
    referenceTarget ch < c.rmin ∨
      ((c.rmin : Int) ≤ referenceTarget ch ∧ (c.rmax : Int) < referenceTarget ch) ∨
      ((c.rmin : Int) ≤ referenceTarget ch ∧ referenceTarget ch ≤ c.rmax) := by
  omega

/-- What the update leaves of the channel, whatever its outcome. -/
theorem updateReference_frame (ch : Channel) (c : ChannelCfg) :
    (ch.updateReference c).1.f = ch.f ∧ (ch.updateReference c).1.decision = ch.decision ∧
      (ch.updateReference c).1.settle = ch.settle ∧ (ch.updateReference c).1.high = ch.high ∧
      (ch.updateReference c).1.interval = ch.interval := by
  rcases referenceTarget_cases ch c with h | ⟨h, h'⟩ | ⟨h, h'⟩
  · simp [updateReference_low ch c h]
  · simp [updateReference_high ch c h h']
  · simp [updateReference_within ch c h h']

/-- The events of the update: itself, with at most the entry to one bound. -/
theorem updateReference_events (ch : Channel) (c : ChannelCfg) :
    (ch.updateReference c).2 = [.reference] ∨ (ch.updateReference c).2 = [.reference, .lowFeed] ∨
      (ch.updateReference c).2 = [.reference, .highFeed] := by
  rcases referenceTarget_cases ch c with h | ⟨h, h'⟩ | ⟨h, h'⟩
  · rw [updateReference_low ch c h]; dsimp only; split <;> simp
  · rw [updateReference_high ch c h h']; dsimp only; split <;> simp
  · simp [updateReference_within ch c h h']

/-- What the update gives of the reference and its events, as one value. -/
def referenceOf (x : Sampled) : Nat × Clamp × Bool × Bool × List TrackEvent :=
  (x.1.r, x.1.clamp, x.1.lowFeed, x.1.highFeed, x.2)

/-- The update depends on R, F, the clamp mark and the flags alone. -/
theorem referenceOf_updateReference_congr {a b : Channel} (c : ChannelCfg) (hr : a.r = b.r)
    (hf : a.f = b.f) (hc : a.clamp = b.clamp) (hl : a.lowFeed = b.lowFeed)
    (hh : a.highFeed = b.highFeed) :
    referenceOf (a.updateReference c) = referenceOf (b.updateReference c) := by
  have ht : referenceTarget a = referenceTarget b := by unfold referenceTarget; rw [hr, hf]
  rcases referenceTarget_cases a c with h | ⟨h, h'⟩ | ⟨h, h'⟩
  · rw [updateReference_low a c h, updateReference_low b c (ht ▸ h)]
    simp [referenceOf, hc, hl, hh]
  · rw [updateReference_high a c h h', updateReference_high b c (ht ▸ h) (ht ▸ h')]
    simp [referenceOf, hc, hl, hh]
  · rw [updateReference_within a c h h', updateReference_within b c (ht ▸ h) (ht ▸ h')]
    simp [referenceOf, hl, hh, ht]

/-! ## The settle count (R3, R15) -/

/-- The settle count of a sample changes that count alone. -/
theorem settleStep_eq (ch : Channel) (c : ChannelCfg) :
    (ch.settleStep c).1 = { ch with settle := (ch.settleStep c).1.settle } := by
  unfold Channel.settleStep; split <;> rfl

theorem settleStep_events (ch : Channel) (c : ChannelCfg) :
    (ch.settleStep c).2 = [] ∨ (ch.settleStep c).2 = [.settled] := by
  unfold Channel.settleStep; (repeat' split) <;> simp

/-- The sample that brings the settle count to Np settles the channel. -/
theorem settleStep_settles {ch : Channel} {c : ChannelCfg} (h : ch.settle + 1 = c.np) :
    ch.settleStep c = ({ ch with settle := c.np }, [.settled]) := by
  have hlt : ch.settle < c.np := by omega
  simp [Channel.settleStep, hlt, h]

/-! ## A valid sample (R3, R4, R6) -/

/-- The channel that a valid sample decides on: the settle count taken, the fault run ended, F filtered. -/
def converted (ch : Channel) (c : ChannelCfg) (n : Fin 1024) : Channel :=
  { (ch.settleStep c).1 with faultRun := 0, f := filtered c.k ch.f n.val }

/-- The decision of a valid sample. -/
def decided (ch : Channel) (c : ChannelCfg) (n : Fin 1024) : Sampled := (converted ch c n).decide c

/-- The channel that a valid sample decides on differs from the channel in F, the fault run and the settle
count. -/
theorem converted_eq (ch : Channel) (c : ChannelCfg) (n : Fin 1024) :
    converted ch c n =
      { ch with
        settle := (ch.settleStep c).1.settle, faultRun := 0, f := filtered c.k ch.f n.val } := by
  unfold converted; rw [settleStep_eq ch c]

/-- A valid sample, in its parts: the settle count, the decision and the interval. -/
theorem sample_valid (ch : Channel) (c : ChannelCfg) (n : Fin 1024) :
    ch.sample c (.valid n) =
      (((decided ch c n).1.intervalStep c ch.decision).1,
        (ch.settleStep c).2 ++
          ((decided ch c n).2 ++ ((decided ch c n).1.intervalStep c ch.decision).2)) := by
  have h := settleStep_eq ch c
  have hf : (ch.settleStep c).1.f = ch.f := by rw [h]
  have hd : (ch.settleStep c).1.decision = ch.decision := by rw [h]
  simp only [Channel.sample, Channel.validSample, decided, converted, hf, hd]

/-- The interval step leaves of the channel all but the interval count and the reference. -/
theorem intervalStep_frame (ch : Channel) (c : ChannelCfg) (was : Decision) :
    (ch.intervalStep c was).1.f = ch.f ∧ (ch.intervalStep c was).1.decision = ch.decision ∧
      (ch.intervalStep c was).1.settle = ch.settle ∧ (ch.intervalStep c was).1.high = ch.high := by
  unfold Channel.intervalStep
  split
  · split
    · exact ⟨rfl, rfl, rfl, rfl⟩
    · obtain ⟨hf, hd, hs, hh, -⟩ := updateReference_frame { ch with interval := 0 } c
      exact ⟨hf, hd, hs, hh⟩
  · exact ⟨rfl, rfl, rfl, rfl⟩

/-- The sample counts for the interval: CLEAR before and after its decision, with the high count 0 (R6). -/
def CountsFor (was : Decision) (ch : Channel) : Prop :=
  was = .clear ∧ ch.decision = .clear ∧ ch.high = 0

theorem countsFor_iff (was : Decision) (ch : Channel) :
    (was == .clear && ch.decision == .clear && ch.high == 0) = true ↔ CountsFor was ch := by
  simp [CountsFor, and_assoc]

theorem intervalStep_counted {ch : Channel} {was : Decision} (c : ChannelCfg) (h : CountsFor was ch)
    (hi : ch.interval + 1 < 100) :
    ch.intervalStep c was = ({ ch with interval := ch.interval + 1 }, []) :=
  (if_pos ((countsFor_iff was ch).mpr h)).trans (if_pos hi)

theorem intervalStep_hundredth {ch : Channel} {was : Decision} (c : ChannelCfg) (h : CountsFor was ch)
    (hi : 100 ≤ ch.interval + 1) :
    ch.intervalStep c was = { ch with interval := 0 }.updateReference c :=
  (if_pos ((countsFor_iff was ch).mpr h)).trans (if_neg (Nat.not_lt.mpr hi))

theorem intervalStep_ended {ch : Channel} {was : Decision} (c : ChannelCfg) (h : ¬CountsFor was ch) :
    ch.intervalStep c was = ({ ch with interval := 0 }, []) :=
  if_neg (mt (countsFor_iff was ch).mp h)

/-- What a valid sample leaves, and the F that it computes. -/
theorem sample_valid_frame (ch : Channel) (c : ChannelCfg) (n : Fin 1024) :
    (ch.sample c (.valid n)).1.f = filtered c.k ch.f n.val ∧
      (ch.sample c (.valid n)).1.decision = (decided ch c n).1.decision ∧
      (ch.sample c (.valid n)).1.high = (decided ch c n).1.high ∧
      (ch.sample c (.valid n)).1.settle = (ch.settleStep c).1.settle := by
  obtain ⟨hif, hid, his, hih⟩ := intervalStep_frame (decided ch c n).1 c ch.decision
  obtain ⟨hdf, -, -, -, -, hds⟩ := decide_frame (converted ch c n) c
  rw [sample_valid]
  exact ⟨hif.trans hdf, hid, hih, his.trans hds⟩

/-! ## An invalid sample (R3, R11) -/

/-- An invalid sample leaves F and the reference with its mark and flags, sets the interval count to 0 and
brings no event of the reference. -/
theorem sample_fault_frame (ch : Channel) (c : ChannelCfg) :
    (ch.sample c .fault).1.f = ch.f ∧ (ch.sample c .fault).1.r = ch.r ∧
      (ch.sample c .fault).1.clamp = ch.clamp ∧ (ch.sample c .fault).1.lowFeed = ch.lowFeed ∧
      (ch.sample c .fault).1.highFeed = ch.highFeed ∧ (ch.sample c .fault).1.interval = 0 ∧
      (ch.sample c .fault).1.settle = (ch.settleStep c).1.settle := by
  simp only [Channel.sample, Channel.invalidSample, Channel.fail]
  rw [settleStep_eq ch c]
  split <;> simp

theorem sample_fault_reference (ch : Channel) (c : ChannelCfg) :
    ∀ ev ∈ [TrackEvent.reference, .lowFeed, .highFeed], ev ∈ (ch.sample c .fault).2 ↔ ev ∈ [] := by
  simp only [Channel.sample, Channel.invalidSample]
  rcases settleStep_events ch c with h | h <;> rw [h] <;> split <;> simp

/-- The settle count that a sample leaves. -/
theorem sample_settle (ch : Channel) (c : ChannelCfg) (x : Sample) :
    (ch.sample c x).1.settle = (ch.settleStep c).1.settle := by
  cases x with
  | valid n => exact (sample_valid_frame ch c n).2.2.2
  | fault => exact (sample_fault_frame ch c).2.2.2.2.2.2

/-! ## What a sample makes of the reference (R6) -/

/-- Two samples leave the reference, its mark and flags alike and bring the same events of it. -/
def SameReference (x u : Sampled) : Prop :=
  x.1.r = u.1.r ∧ x.1.clamp = u.1.clamp ∧ x.1.lowFeed = u.1.lowFeed ∧ x.1.highFeed = u.1.highFeed ∧
    ∀ ev ∈ [TrackEvent.reference, .lowFeed, .highFeed], ev ∈ x.2 ↔ ev ∈ u.2

/-- The events of the reference that a valid sample brings are those of its interval step. -/
theorem reference_events_sample (ch : Channel) (c : ChannelCfg) (n : Fin 1024) :
    ∀ ev ∈ [TrackEvent.reference, .lowFeed, .highFeed], ev ∈ (ch.sample c (.valid n)).2 ↔
      ev ∈ ((decided ch c n).1.intervalStep c ch.decision).2 := by
  obtain ⟨hr, hl, hh⟩ := decide_events (converted ch c n) c
  have hs : ∀ ev ∈ [TrackEvent.reference, .lowFeed, .highFeed], ev ∉ (ch.settleStep c).2 := by
    rcases settleStep_events ch c with h | h <;> simp [h]
  intro ev hev
  have hd : ev ∉ (decided ch c n).2 := by
    simp only [List.mem_cons, List.not_mem_nil, or_false] at hev
    rcases hev with rfl | rfl | rfl
    · exact hr
    · exact hl
    · exact hh
  simp [sample_valid, hs ev hev, hd]

/-- A valid sample makes of the reference what its interval step does. -/
theorem sameReference_sample {ch : Channel} {c : ChannelCfg} {n : Fin 1024} {u : Sampled}
    (h : SameReference ((decided ch c n).1.intervalStep c ch.decision) u) :
    SameReference (ch.sample c (.valid n)) u := by
  obtain ⟨hr, hc, hl, hh, hev⟩ := h
  refine ⟨?_, ?_, ?_, ?_, fun ev he => (reference_events_sample ch c n ev he).trans (hev ev he)⟩ <;>
    rw [sample_valid] <;> assumption

/-- The decision of a sample leaves the reference as the channel has it. -/
theorem decided_frame (ch : Channel) (c : ChannelCfg) (n : Fin 1024) :
    (decided ch c n).1.f = filtered c.k ch.f n.val ∧ (decided ch c n).1.r = ch.r ∧
      (decided ch c n).1.clamp = ch.clamp ∧ (decided ch c n).1.lowFeed = ch.lowFeed ∧
      (decided ch c n).1.highFeed = ch.highFeed := by
  obtain ⟨hf, hr, hc, hl, hh, -⟩ := decide_frame (converted ch c n) c
  have he := converted_eq ch c n
  exact ⟨by rw [decided, hf, he], by rw [decided, hr, he], by rw [decided, hc, he],
    by rw [decided, hl, he], by rw [decided, hh, he]⟩

/-- A decision of a sample that stays CLEAR keeps the interval count. -/
theorem decided_interval {ch : Channel} {c : ChannelCfg} {n : Fin 1024}
    (h : CountsFor ch.decision (decided ch c n).1) : (decided ch c n).1.interval = ch.interval := by
  obtain ⟨hwas, hd, -⟩ := h
  have he := converted_eq ch c n
  rw [decided, decide_interval _ c (by rw [he]; exact hwas) hd, he]

/-- The update after the hundredth sample's decision is that of the channel with the F just computed. -/
theorem referenceOf_hundredth (ch : Channel) (c : ChannelCfg) (n : Fin 1024) :
    referenceOf ({ (decided ch c n).1 with interval := 0 }.updateReference c) =
      referenceOf ({ ch with f := filtered c.k ch.f n.val }.updateReference c) := by
  obtain ⟨hf, hr, hc, hl, hh⟩ := decided_frame ch c n
  exact referenceOf_updateReference_congr c hr hf hc hl hh

/-- The hundredth sample makes the update with the F just computed. -/
theorem sameReference_hundredth {ch : Channel} {c : ChannelCfg} {n : Fin 1024}
    (h : CountsFor ch.decision (decided ch c n).1) (hi : 100 ≤ (decided ch c n).1.interval + 1) :
    SameReference (ch.sample c (.valid n))
      ({ ch with f := filtered c.k ch.f n.val }.updateReference c) := by
  have he := referenceOf_hundredth ch c n
  simp only [referenceOf, Prod.mk.injEq] at he
  obtain ⟨er, ec, el, eh, ee⟩ := he
  apply sameReference_sample
  rw [intervalStep_hundredth c h hi]
  exact ⟨er, ec, el, eh, fun ev _ => by rw [ee]⟩

/-- The interval count after the hundredth sample. -/
theorem interval_hundredth {ch : Channel} {c : ChannelCfg} {n : Fin 1024}
    (h : CountsFor ch.decision (decided ch c n).1) (hi : 100 ≤ (decided ch c n).1.interval + 1) :
    (ch.sample c (.valid n)).1.interval = 0 := by
  obtain ⟨-, -, -, -, hu⟩ := updateReference_frame { (decided ch c n).1 with interval := 0 } c
  rw [sample_valid, intervalStep_hundredth c h hi]
  exact hu

/-- Every other valid sample leaves the reference. -/
theorem sameReference_kept {ch : Channel} {c : ChannelCfg} {n : Fin 1024}
    (h : CountsFor ch.decision (decided ch c n).1 → (decided ch c n).1.interval + 1 < 100) :
    SameReference (ch.sample c (.valid n)) (ch, []) := by
  obtain ⟨-, hr, hc, hl, hh⟩ := decided_frame ch c n
  apply sameReference_sample
  by_cases hcount : CountsFor ch.decision (decided ch c n).1
  · rw [intervalStep_counted c hcount (h hcount)]
    exact ⟨hr, hc, hl, hh, fun _ _ => Iff.rfl⟩
  · rw [intervalStep_ended c hcount]
    exact ⟨hr, hc, hl, hh, fun _ _ => Iff.rfl⟩

/-! ## The statements about one channel -/

/-- Settles O4: the truncated quotient lies between 0 and D (`tdiv_between`), from which the bounds, and it is 0
exactly where D is shorter than 2 to the power k. -/
theorem filterLaw : Obligations.FilterLaw := by
  refine ⟨fun k f n _ hf hn => ?_, by decide, by decide, fun ch c n => ?_⟩
  · obtain ⟨hup, hdown⟩ := filtered_bounds k f n
    exact ⟨filtered_cast k f n, fun hk => hk ▸ filtered_zero f n, hup, hdown, filtered_eq_iff k f n,
      filtered_le k hf hn⟩
  · refine ⟨(sample_valid_frame ch c n).1, (sample_fault_frame ch c).1, fun _ hf x => ?_, fun hr => ?_⟩
    · cases x with
      | valid n => rw [(sample_valid_frame ch c n).1]; exact filtered_le c.k hf (by omega)
      | fault => rw [(sample_fault_frame ch c).1]; exact hf
    · simp only [ChannelCfg.inRange, within, Bool.and_eq_true, decide_eq_true_eq] at hr
      exact ⟨rfl, by omega⟩

/-- Settles O5: R1 keeps Kp above Kd with Rmin × (Kp - Kd) at 256 or more, which parts Td from Tp by 1 at
least, and Kd, Kp below 256 with Kh at 256 or more, which puts R between Tp and Th. -/
theorem thresholdLaw : Obligations.ThresholdLaw := by
  refine ⟨fun c r hr hlo hhi => ?_, fun kh => by omega⟩
  simp only [ChannelCfg.inRange, within, Bool.and_eq_true, decide_eq_true_eq] at hr
  have hgap : 256 ≤ r * (c.kp - c.kd) :=
    Nat.le_trans (by omega) (Nat.mul_le_mul_right (c.kp - c.kd) hlo)
  have hsub : r * c.kp = r * c.kd + r * (c.kp - c.kd) := by
    rw [← Nat.mul_add]; congr 1; omega
  have hkp : r * c.kp ≤ r * 255 := Nat.mul_le_mul_left r (by omega)
  have hkh : r * 256 ≤ r * c.kh := Nat.mul_le_mul_left r (by omega)
  refine ⟨rfl, rfl, rfl, ?_⟩
  unfold dropThreshold pickThreshold highThreshold Config.fullScale
  refine ⟨?_, ?_, ?_, ?_, fun h f hf => ?_⟩ <;> omega

/-- Settles O6, by the three outcomes of the update. -/
theorem referenceLaw : Obligations.ReferenceLaw := by
  intro ch c hlo hhi x u ev
  have hx : x = referenceTarget ch := rfl
  rw [hx]
  rcases referenceTarget_cases ch c with h | ⟨h, h'⟩ | ⟨h, h'⟩
  · simp only [u, ev, updateReference_low ch c h]
    refine ⟨⟨Nat.le_refl _, Nat.le_trans hlo hhi⟩, fun _ => ⟨trivial, trivial, trivial, trivial, ?_, ?_⟩,
      fun h2 => by omega, fun h2 => by omega, trivial, trivial⟩ <;>
      by_cases hm : ch.clamp = .low <;> simp [hm]
  · simp only [u, ev, updateReference_high ch c h h']
    refine ⟨⟨Nat.le_trans hlo hhi, Nat.le_refl _⟩, fun h2 => by omega,
      fun _ => ⟨trivial, trivial, trivial, trivial, ?_, ?_⟩, fun _ h2 => by omega, trivial, trivial⟩ <;>
      by_cases hm : ch.clamp = .high <;> simp [hm]
  · simp only [u, ev, updateReference_within ch c h h']
    exact ⟨by omega, fun h2 => by omega, fun h2 => by omega,
      fun _ _ => ⟨by omega, trivial, trivial, trivial, trivial⟩, trivial, trivial⟩

/-- Settles O7: the interval step sees the channel as its decision leaves it, whose interval count a decision
that stays CLEAR keeps. -/
theorem intervalLaw : Obligations.IntervalLaw := by
  intro ch c n t as
  obtain ⟨hf, hd, hh, -⟩ := sample_valid_frame ch c n
  have hcount : ch.decision = .clear ∧ t.decision = .clear ∧ t.high = 0 ↔
      CountsFor ch.decision (decided ch c n).1 := by
    rw [CountsFor, ← hd, ← hh]
  have ht : t.interval = ((decided ch c n).1.intervalStep c ch.decision).1.interval := by
    simp only [t, sample_valid]
  rw [hcount, ht]
  refine ⟨fun h => ?_, fun h => ?_, ?_⟩
  · have he := decided_interval h
    refine ⟨fun hi => ?_, fun hi => ?_⟩ <;> rw [← he] at hi
    · exact ⟨by rw [intervalStep_counted c h hi, he], sameReference_kept fun _ => hi⟩
    · rw [← ht]
      simp only [t, hf]
      exact ⟨interval_hundredth h hi, sameReference_hundredth h hi⟩
  · exact ⟨by rw [intervalStep_ended c h], sameReference_kept fun hc => absurd hc h⟩
  · obtain ⟨-, hr, hc, hl, hh, hi, -⟩ := sample_fault_frame ch c
    exact ⟨hi, hr, hc, hl, hh, sample_fault_reference ch c⟩

end Sys2Proof.TrackSensing
end

section
/-! What the section unit's answers at one end leave alone, and what the close of an event makes of a view
and of the record unit after them, where no damage waits to be found. -/

namespace Sys2Proof.EndEffects

open Sys2Proof Sys2Proof.Machine

/-! ## The record unit: further notices and entries (R155, R157) -/

/-- The record unit after further notices and entries. -/
inductive Grows (r : RecordUnit) : RecordUnit → Prop
  | refl : Grows r r
  | notify {r' : RecordUnit} (k : NoticeKind) (n : Nat) : Grows r r' → Grows r (r'.notify k n)
  | take {r' : RecordUnit} (i : EventInfo) : Grows r r' → Grows r (r'.take i)

theorem Grows.trans {r r' r'' : RecordUnit} (h : Grows r r') (h' : Grows r' r'') : Grows r r'' := by
  induction h' with
  | refl => exact h
  | notify k n _ ih => exact ih.notify k n
  | take i _ ih => exact ih.take i

theorem mem_notify {r : RecordUnit} {x : Notice} (k : NoticeKind) (n : Nat) (h : x ∈ r.notices) :
    x ∈ (r.notify k n).notices := by
  unfold RecordUnit.notify
  split
  · exact List.mem_append_left _ h
  · exact h

theorem mem_take {r : RecordUnit} {x : Notice} (i : EventInfo) (h : x ∈ r.notices) :
    x ∈ (r.take i).notices := by
  unfold RecordUnit.take
  dsimp only
  (repeat' split) <;> first
    | exact mem_notify (r := { r with register := _, nextNumber := _ }) _ _ h
    | exact mem_notify (r := { r with register := _, nextNumber := _, overwrite := _ }) _ _ h
    | exact h

/-- A queued notice stays queued while notices and entries are taken. -/
theorem Grows.mem {r r' : RecordUnit} {x : Notice} (h : Grows r r') (hx : x ∈ r.notices) :
    x ∈ r'.notices := by
  induction h with
  | refl => exact hx
  | notify k n _ ih => exact mem_notify k n ih
  | take i _ ih => exact mem_take i ih

/-- A notice taken while the queue has a place joins it (R157). -/
theorem mem_notify_new {r : RecordUnit} (k : NoticeKind) (n : Nat) (h : r.notices.length < 32) :
    ⟨k, n, r.time, r.timeValid⟩ ∈ (r.notify k n).notices := by
  have h' : r.notices.length < Config.noticePlaces := h
  rw [RecordUnit.notify, if_pos h']
  exact List.mem_append_right _ (List.mem_singleton.mpr rfl)

theorem notices_notify_le (r : RecordUnit) (k : NoticeKind) (n : Nat) :
    (r.notify k n).notices.length ≤ r.notices.length + 1 := by
  unfold RecordUnit.notify
  split <;> simp

/-! ## The view of an end under changes of the ends -/

/-- What a view shows of its section: its state, direction, class and acceptance number. -/
def shown (v : View) : SecState × Direction × Option Nat × Nat := (v.state, v.dir, v.cls, v.acc)

section Views
variable {s t : State} {e e' : EndNo}

theorem view_of_ends (h : t.ends = s.ends) (e : EndNo) : t.view e = s.view e := by
  unfold State.view; rw [h]

@[simp] theorem view_updView_same (f : View → View) : (s.updView e f).view e = f (s.view e) := by
  simp only [State.view, State.updView, updEnd_ends, look_upd_same]

theorem view_updView_ne (f : View → View) (h : e' ≠ e) : (s.updView e f).view e' = s.view e' := by
  simp only [State.view, State.updView, updEnd_ends, look_upd_ne _ _ h.symm]

/-- A change of an end that leaves its view leaves every view. -/
theorem view_updEnd (f : EndDyn → EndDyn) (h : ∀ d, (f d).view = d.view) :
    (s.updEnd e f).view e' = s.view e' := by
  simp only [State.view, updEnd_ends, look_upd]
  split <;> simp [h]

/-- The proof of an end changed leaves what its view shows of the section. -/
@[simp] theorem proof_updProof_same (f : Proof → Proof) :
    ((s.updProof e f).view e).proof = (s.view e).proof.map f := by
  simp [State.updProof]

end Views

theorem switchedOut_of_switch {s t : State} (h : t.switch = s.switch) :
    t.switchedOut = s.switchedOut := by unfold State.switchedOut; rw [h]

/-! ## What an answer at one end leaves alone -/

/-- The change from one state to another made at one section end: the switch record and the views of the other
ends stand, and the record unit has taken at most further notices and entries. -/
structure ActsAt (e : EndNo) (s t : State) : Prop where
  switch : t.switch = s.switch
  views : ∀ e', e' ≠ e → t.view e' = s.view e'
  records : Grows s.records t.records

theorem ActsAt.refl (e : EndNo) (s : State) : ActsAt e s s := ⟨rfl, fun _ _ => rfl, .refl⟩

theorem ActsAt.trans {e : EndNo} {s t u : State} (h : ActsAt e s t) (h' : ActsAt e t u) :
    ActsAt e s u :=
  ⟨h'.switch.trans h.switch, fun e' he => (h'.views e' he).trans (h.views e' he),
    h.records.trans h'.records⟩

section Acts
variable (e : EndNo) (s : State)

theorem actsAt_updView (f : View → View) : ActsAt e s (s.updView e f) :=
  ⟨rfl, fun _ h => view_updView_ne f h, .refl⟩
theorem actsAt_updProof (f : Proof → Proof) : ActsAt e s (s.updProof e f) := actsAt_updView e s _
theorem actsAt_updBell (f : BellEnd → BellEnd) : ActsAt e s (s.updBell e f) :=
  ⟨rfl, fun _ _ => rfl, .refl⟩
theorem actsAt_enqueue (t : TxEntry) : ActsAt e s (s.enqueue t) := ⟨rfl, fun _ _ => rfl, .refl⟩
theorem actsAt_notify (k : NoticeKind) (n : Nat) : ActsAt e s (s.notify k n) :=
  ⟨rfl, fun _ _ => rfl, Grows.refl.notify k n⟩
theorem actsAt_register (i : EventInfo) : ActsAt e s (s.register i) :=
  ⟨rfl, fun _ _ => rfl, Grows.refl.take i⟩

theorem actsAt_registerChange (c : EndCfg) (old new : View) (auto : Bool) :
    ActsAt e s (s.registerChange c old new auto) := by
  unfold State.registerChange
  (repeat' split) <;> first
    | exact actsAt_register e s _
    | exact .refl e s

theorem actsAt_registerView (c : EndCfg) (old new : View) (auto : Bool) :
    ActsAt e s (s.registerView c old new auto) := by
  have h := actsAt_registerChange e s c old new auto
  unfold State.registerView
  dsimp only
  split
  · exact h.trans (actsAt_register e _ _)
  · exact h

theorem actsAt_changeView (c : EndCfg) (new : View) (auto : Bool) :
    ActsAt e s (s.changeView e c new auto) :=
  (((actsAt_updView e s _).trans (actsAt_updBell e _ _)).trans (actsAt_updView e _ _)).trans
    (actsAt_registerView e _ c _ new auto)

theorem actsAt_autoArrivalRefused (c : EndCfg) (seen : Bool) (r : Reason) :
    ActsAt e s (s.autoArrivalRefused e c seen r) := by
  unfold State.autoArrivalRefused
  refine ActsAt.trans (t := if seen = true then s else s.registerRefused c r true) ?_
    (actsAt_updProof e _ _)
  split
  · exact .refl e s
  · exact actsAt_register e s _

variable {s}

theorem actsAt_makeRequest (c : EndCfg) (k : ReqKind) (n : Nat) (o : Origin) {refused : State → State}
    (hr : ∀ t, ActsAt e t (refused t)) (h : s.Calm) :
    ActsAt e s (s.makeRequest e c k n o refused) := by
  unfold State.makeRequest
  simp only [verify_calm h]
  (repeat' split)
  · exact .refl e s
  · exact (actsAt_enqueue e s _).trans (actsAt_updView e _ _)
  · exact ((actsAt_notify e s _ _).trans (actsAt_updView e _ _)).trans (hr _)

theorem actsAt_attemptCancel (c : EndCfg) (h : s.Calm) : ActsAt e s (s.attemptCancel e c) := by
  unfold State.attemptCancel
  dsimp only
  (repeat' split)
  · exact .refl e s
  · exact actsAt_updView e s _
  · exact (actsAt_updView e s _).trans
      (actsAt_makeRequest e c _ _ _ (fun t => actsAt_updView e t _) (calm_of_rest (rest_updView s e _) h))

theorem actsAt_giveArrival (c : EndCfg) (h : s.Calm) : ActsAt e s (s.giveArrival e c) := by
  unfold State.giveArrival
  dsimp only
  (repeat' split)
  · exact .refl e s
  · exact actsAt_updProof e s _
  · exact actsAt_changeView e s c _ true
  · exact actsAt_updProof e s _
  · exact (actsAt_updProof e s _).trans
      (actsAt_makeRequest e c _ _ _ (fun t => actsAt_autoArrivalRefused e t c _ _)
        (calm_of_rest (rest_updProof s e _) h))

theorem actsAt_attemptArrival (c : EndCfg) (h : s.Calm) : ActsAt e s (s.attemptArrival e c) := by
  unfold State.attemptArrival
  rw [verify_calm h]
  split
  · exact actsAt_giveArrival e c h
  · exact .refl e s

theorem actsAt_completeProof (c : EndCfg) (h : s.Calm) : ActsAt e s (s.completeProof e c) :=
  (actsAt_updProof e s _).trans (actsAt_attemptArrival e c (calm_of_rest (rest_updProof s e _) h))

theorem actsAt_afterSettled (c : EndCfg) (o : Origin) (h : s.Calm) :
    ActsAt e s (s.afterSettled e c o) := by
  unfold State.afterSettled
  dsimp only
  (repeat' split)
  · exact actsAt_attemptCancel e c h
  · exact actsAt_attemptArrival e c h
  · exact .refl e s

theorem actsAt_autoOccupy (s : State) (s0 : State) : ActsAt e s (s.autoOccupy s0 e) := by
  unfold State.autoOccupy
  (repeat' split)
  · exact .refl e s
  · exact actsAt_changeView e s _ _ true
  · exact .refl e s

end Acts

/-! ## The arrival proof (R108) -/

/-- The progress of a proof after the changes of its tracks since `s0`, and whether the proving was broken. -/
def provingMove (s0 s : State) (ts : List Track) (p : Nat) : Nat × Bool :=
  (List.range ts.length).foldl (fun x i => provingStep s0 s ts x (i + 1)) (p, false)

/-- The proof's new progress put in its place, with PROVING BROKEN where the proving was broken. -/
def moveProof (s : State) (e : EndNo) (x : Nat × Bool) : State :=
  let t := s.updProof e fun p => { p with p := x.1 }
  if x.2 then t.notify .provingBroken (endSubject e) else t

section Proof
variable {s s0 : State} {e : EndNo}

/-- A proof that is followed moves, and is complete where its progress is its length and its tracks say so. -/
theorem followProof_eq {z : EndCfg} {p : Proof} (hz : s.endCfg e = some z)
    (hp : (s.view e).proof = some p) (hi : p.complete = false) :
    s.followProof s0 e =
      let t := moveProof s e (provingMove s0 s z.proving p.p)
      if (provingMove s0 s z.proving p.p).1 == z.proving.length && provingDone s0 s z.proving then
        t.completeProof e z
      else t := by
  unfold State.followProof moveProof provingMove
  simp only [hz, hp, hi, Bool.false_eq_true, ↓reduceIte]

/-- A section end that has no proof to follow is left. -/
theorem followProof_idle (h : ∀ z p, s.endCfg e = some z → (s.view e).proof = some p → p.complete = true) :
    s.followProof s0 e = s := by
  unfold State.followProof
  split
  · next c p hc hp => rw [if_pos (h c p hc hp)]
  · rfl

/-- The two ways in which an end takes part in the following of the proofs. -/
theorem followProof_cases (s : State) (e : EndNo) :
    (∃ z p, s.endCfg e = some z ∧ (s.view e).proof = some p ∧ p.complete = false) ∨
      ∀ z p, s.endCfg e = some z → (s.view e).proof = some p → p.complete = true := by
  by_cases h : ∃ z p, s.endCfg e = some z ∧ (s.view e).proof = some p ∧ p.complete = false
  · exact .inl h
  · refine .inr fun z p hz hp => ?_
    cases hc : p.complete with
    | true => rfl
    | false => exact absurd ⟨z, p, hz, hp, hc⟩ h

theorem actsAt_moveProof (s : State) (x : Nat × Bool) : ActsAt e s (moveProof s e x) := by
  unfold moveProof
  dsimp only
  split
  · exact (actsAt_updProof e s _).trans (actsAt_notify e _ _ _)
  · exact actsAt_updProof e s _

theorem switchedOut_moveProof (s : State) (e : EndNo) (x : Nat × Bool) :
    (moveProof s e x).switchedOut = s.switchedOut :=
  switchedOut_of_switch (actsAt_moveProof (e := e) s x).switch

theorem rest_moveProof (s : State) (x : Nat × Bool) : (moveProof s e x).rest = s.rest := by
  unfold moveProof
  dsimp only
  split <;> simp

theorem actsAt_followProof (h : s.Calm) : ActsAt e s (s.followProof s0 e) := by
  rcases followProof_cases s e with ⟨z, p, hz, hp, hi⟩ | hidle
  · rw [followProof_eq hz hp hi]
    have hm := actsAt_moveProof (e := e) s (provingMove s0 s z.proving p.p)
    dsimp only
    split
    · exact hm.trans (actsAt_completeProof e z (calm_of_rest (rest_moveProof s _) h))
    · exact hm
  · rw [followProof_idle hidle]
    exact .refl e s

end Proof

/-! ## The answers at the ends in turn -/

/-- One state came from another by what is done at other section ends than `e`. -/
structure Elsewhere (e : EndNo) (s t : State) : Prop where
  rest : t.rest = s.rest
  view : t.view e = s.view e
  switch : t.switch = s.switch
  records : Grows s.records t.records

theorem Elsewhere.refl (e : EndNo) (s : State) : Elsewhere e s s := ⟨rfl, rfl, rfl, .refl⟩

theorem Elsewhere.trans {e : EndNo} {s t u : State} (h : Elsewhere e s t) (h' : Elsewhere e t u) :
    Elsewhere e s u :=
  ⟨h'.rest.trans h.rest, h'.view.trans h.view, h'.switch.trans h.switch, h.records.trans h'.records⟩

/-- Acts at ends other than `e` in turn. -/
theorem elsewhere_each {e : EndNo} {f : State → EndNo → State}
    (hf : ∀ s x, s.Calm → ActsAt x s (f s x)) (hr : ∀ s x, s.Calm → (f s x).rest = s.rest)
    (xs : List EndNo) (he : e ∉ xs) {s : State} (hs : s.Calm) : Elsewhere e s (s.each xs f) := by
  unfold State.each
  induction xs generalizing s with
  | nil => exact .refl e s
  | cons x xs ih =>
    have hne : e ≠ x := fun h => he (h ▸ List.mem_cons_self)
    have hx := hf s x hs
    have h1 : Elsewhere e s (f s x) := ⟨hr s x hs, hx.views e hne, hx.switch, hx.records⟩
    exact h1.trans (ih (fun h => he (List.mem_cons_of_mem x h)) (calm_of_rest (hr s x hs) hs))

theorem each_append {α : Type} (s : State) (xs ys : List α) (f : State → α → State) :
    s.each (xs ++ ys) f = (s.each xs f).each ys f := List.foldl_append

/-- An item of a list without repetitions stands neither before nor after itself. -/
theorem not_mem_of_nodup {α : Type} {pre post : List α} {x : α} (h : (pre ++ x :: post).Nodup) :
    x ∉ pre ∧ x ∉ post := by
  obtain ⟨-, hpost, hne⟩ := List.nodup_append.mp h
  exact ⟨fun hx => hne x hx x List.mem_cons_self rfl, (List.nodup_cons.mp hpost).1⟩

/-- A section end among all of them, with those before it and those after it. -/
theorem allEnds_split (e : EndNo) :
    ∃ pre post, allEnds = pre ++ e :: post ∧ e ∉ pre ∧ e ∉ post ∧ pre.length ≤ 5 := by
  obtain ⟨pre, post, h⟩ := List.append_of_mem (List.mem_finRange e)
  have hn : (pre ++ e :: post).Nodup := h ▸ List.nodup_finRange 6
  have hl : (pre ++ e :: post).length = 6 := by rw [← h]; exact List.length_finRange
  obtain ⟨hpre, hpost⟩ := not_mem_of_nodup hn
  simp only [List.length_append, List.length_cons] at hl
  exact ⟨pre, post, h, hpre, hpost, by omega⟩

/-- Answers at every end in turn, seen from one end: what is done at the ends before it, its own, and what is
done at the ends after it. -/
theorem each_allEnds_at {f : State → EndNo → State} (hf : ∀ s x, s.Calm → ActsAt x s (f s x))
    (hr : ∀ s x, s.Calm → (f s x).rest = s.rest) (e : EndNo) {s : State} (hs : s.Calm) :
    ∃ pre, pre.length ≤ 5 ∧ Elsewhere e s (s.each pre f) ∧
      Elsewhere e (f (s.each pre f) e) (s.each allEnds f) := by
  obtain ⟨pre, post, hall, hpre, hpost, hlen⟩ := allEnds_split e
  have hm := elsewhere_each hf hr pre hpre hs
  have hc := calm_of_rest hm.rest hs
  refine ⟨pre, hlen, hm, ?_⟩
  rw [hall, each_append]
  exact elsewhere_each hf hr post hpost (calm_of_rest (hr _ e hc) hc)

/-- No arrival is given out at a switched-in station, nor at an end that is not occupied (R132). -/
theorem attemptArrival_idle {s : State} {e : EndNo} {c : EndCfg} (h : s.Calm)
    (hn : s.switchedOut = false ∨ (s.view e).shows .occupied c.toHere = false) :
    s.attemptArrival e c = s := by
  unfold State.attemptArrival State.giveArrival State.autoArrives State.arrivalReady
  rcases hn with ho | hv
  · simp [verify_calm h, ho]
  · simp [hv]

/-- What a proof comes to then is its own completion. -/
theorem completeProof_idle {s : State} {e : EndNo} {c : EndCfg} (h : s.Calm)
    (hn : s.switchedOut = false ∨ (s.view e).shows .occupied c.toHere = false) :
    s.completeProof e c = s.updProof e fun p => { p with complete := true, waitUntil := none } := by
  unfold State.completeProof
  refine attemptArrival_idle (calm_of_rest (rest_updProof s e _) h) (hn.imp id fun hv => ?_)
  simpa only [State.updProof, view_updView_same, View.shows] using hv

theorem proof_moveProof (s : State) (e : EndNo) (x : Nat × Bool) :
    ((moveProof s e x).view e).proof = (s.view e).proof.map fun p => { p with p := x.1 } := by
  unfold moveProof
  dsimp only
  split <;> simp [view_of_ends (notify_ends _ _ _)]

theorem shown_moveProof (s : State) (e : EndNo) (x : Nat × Bool) :
    shown ((moveProof s e x).view e) = shown (s.view e) := by
  unfold moveProof State.updProof
  dsimp only
  split <;> simp [view_of_ends (notify_ends _ _ _), shown]

/-- What a proof that is followed comes to, where no arrival is given out. -/
theorem proof_followProof {s s0 : State} {e : EndNo} {z : EndCfg} {p : Proof} (h : s.Calm)
    (ho : s.switchedOut = false) (hz : s.endCfg e = some z) (hp : (s.view e).proof = some p)
    (hi : p.complete = false) :
    ((s.followProof s0 e).view e).proof = some
      (let x := provingMove s0 s z.proving p.p
       if x.1 == z.proving.length && provingDone s0 s z.proving then
         { p with p := x.1, complete := true, waitUntil := none }
       else { p with p := x.1 }) := by
  have hm := proof_moveProof s e (provingMove s0 s z.proving p.p)
  rw [hp, Option.map_some] at hm
  rw [followProof_eq hz hp hi]
  dsimp only
  split
  · rw [completeProof_idle (calm_of_rest (rest_moveProof s _) h)
      (.inl ((switchedOut_moveProof s e _).trans ho)), proof_updProof_same, hm, Option.map_some]
  · exact hm

/-- Where no arrival is given out, the following of a proof leaves what the view shows of its section. -/
theorem shown_followProof {s s0 : State} {e : EndNo} {z : EndCfg} (h : s.Calm)
    (hz : s.endCfg e = some z)
    (hn : s.switchedOut = false ∨ (s.view e).shows .occupied z.toHere = false) :
    shown ((s.followProof s0 e).view e) = shown (s.view e) := by
  rcases followProof_cases s e with ⟨z', p, hz', hp, hi⟩ | hidle
  · obtain rfl : z = z' := Option.some.inj (hz.symm.trans hz')
    have hm := shown_moveProof s e (provingMove s0 s z.proving p.p)
    rw [followProof_eq hz hp hi]
    dsimp only
    split
    · have hn' : (moveProof s e (provingMove s0 s z.proving p.p)).switchedOut = false ∨
          ((moveProof s e (provingMove s0 s z.proving p.p)).view e).shows .occupied z.toHere = false := by
        refine hn.imp (switchedOut_moveProof s e _).trans fun hv => ?_
        simp only [shown, Prod.mk.injEq] at hm
        simpa only [View.shows, hm.1, hm.2.1] using hv
      rw [completeProof_idle (calm_of_rest (rest_moveProof s _) h) hn']
      simpa only [State.updProof, view_updView_same, shown] using hm
    · exact hm
  · rw [followProof_idle hidle]

/-- The notice of a broken proving is queued where the queue has a place. -/
theorem notice_followProof {s s0 : State} {e : EndNo} {z : EndCfg} {p : Proof} (h : s.Calm)
    (hz : s.endCfg e = some z) (hp : (s.view e).proof = some p) (hi : p.complete = false)
    (hb : (provingMove s0 s z.proving p.p).2 = true) (hn : s.records.notices.length < 32) :
    ⟨.provingBroken, endSubject e, s.records.time, s.records.timeValid⟩
      ∈ (s.followProof s0 e).records.notices := by
  have hm : ⟨.provingBroken, endSubject e, s.records.time, s.records.timeValid⟩
      ∈ (moveProof s e (provingMove s0 s z.proving p.p)).records.notices := by
    unfold moveProof
    rw [if_pos hb]
    exact mem_notify_new _ _ hn
  rw [followProof_eq hz hp hi]
  dsimp only
  split
  · exact (actsAt_completeProof e z (calm_of_rest (rest_moveProof s _) h)).records.mem hm
  · exact hm

/-- At a switched-in station the proofs of the ends raise a notice each at most. -/
theorem notices_followProof_inn {s : State} (s0 : State) (e : EndNo) (h : s.Calm)
    (ho : s.switchedOut = false) :
    (s.followProof s0 e).records.notices.length ≤ s.records.notices.length + 1 := by
  rcases followProof_cases s e with ⟨z, p, hz, hp, hi⟩ | hidle
  · rw [followProof_eq hz hp hi]
    have hm (x) : (moveProof s e x).records.notices.length ≤ s.records.notices.length + 1 := by
      unfold moveProof
      dsimp only
      split
      · exact notices_notify_le _ _ _
      · exact Nat.le_succ _
    dsimp only
    split
    · rw [completeProof_idle (calm_of_rest (rest_moveProof s _) h)
        (.inl ((switchedOut_moveProof s e _).trans ho))]
      exact hm _
    · exact hm _
  · rw [followProof_idle hidle]
    exact Nat.le_succ _

theorem notices_each_followProof_inn {s : State} (s0 : State) (xs : List EndNo) (h : s.Calm)
    (ho : s.switchedOut = false) :
    (s.each xs fun s e => s.followProof s0 e).records.notices.length
      ≤ s.records.notices.length + xs.length := by
  unfold State.each
  induction xs generalizing s with
  | nil => exact Nat.le_refl _
  | cons x xs ih =>
    have h1 := notices_followProof_inn s0 x h ho
    have h2 := ih (calm_of_rest (rest_followProof s0 x h) h)
      ((switchedOut_of_switch (actsAt_followProof h).switch).trans ho)
    simp only [List.foldl_cons, List.length_cons]
    omega

/-- The section unit's answer to the tracks, seen from one end: its proof is followed in a state `m`, its
occupation judged in a state `q`, and all else is done at other ends. -/
theorem trackReactions_at {s : State} (s0 : State) (e : EndNo) (h : s.Calm) :
    ∃ m q, Elsewhere e s m ∧ Elsewhere e (m.followProof s0 e) q ∧
      Elsewhere e (q.autoOccupy s0 e) (s.trackReactions s0) ∧
      (s.switchedOut = false → m.records.notices.length ≤ s.records.notices.length + 5) := by
  have hp : ∀ (s : State) x, s.Calm → ActsAt x s (s.followProof s0 x) := fun _ _ h =>
    actsAt_followProof h
  have hpr : ∀ (s : State) x, s.Calm → (s.followProof s0 x).rest = s.rest := fun _ x h =>
    rest_followProof s0 x h
  have ha : ∀ (s : State) x, s.Calm → ActsAt x s (s.autoOccupy s0 x) := fun s x _ =>
    actsAt_autoOccupy x s s0
  have har : ∀ (s : State) x, s.Calm → (s.autoOccupy s0 x).rest = s.rest := fun s x _ =>
    rest_autoOccupy s s0 x
  obtain ⟨pre, hlen, hm, hm'⟩ := each_allEnds_at hp hpr e h
  have hc := calm_of_rest (each_rest allEnds _ hpr h) h
  obtain ⟨pre', -, hq, hq'⟩ := each_allEnds_at ha har e hc
  refine ⟨_, _, hm, hm'.trans hq, hq', fun ho => ?_⟩
  exact Nat.le_trans (notices_each_followProof_inn s0 pre h ho) (by omega)

/-! ## The close of an event after the answers -/

section Close
variable (s : State) (e : EndNo)

theorem view_followViews : s.followViews.view e = s.view e := by
  have hr (s : State) (x : EndNo) : (s.followRelease x).view e = s.view e := by
    unfold State.followRelease
    (repeat' split) <;> first
      | rfl
      | exact view_updEnd _ fun _ => rfl
  have hd (s : State) (x : EndNo) : (s.followDemand x).view e = s.view e := by
    unfold State.followDemand
    dsimp only
    (repeat' split) <;> first
      | rfl
      | exact view_updEnd _ fun _ => rfl
  unfold State.followViews
  rw [each_keeps (fun s => s.view e) _ _ hd, each_keeps (fun s => s.view e) _ _ hr]

/-- The releases and demands are followed without the switch record and the record unit. -/
theorem followViews_frame :
    s.followViews.switch = s.switch ∧ s.followViews.records = s.records := by
  have hr (s : State) (x : EndNo) : ((s.followRelease x).switch, (s.followRelease x).records) =
      (s.switch, s.records) := by
    unfold State.followRelease
    (repeat' split) <;> rfl
  have hd (s : State) (x : EndNo) : ((s.followDemand x).switch, (s.followDemand x).records) =
      (s.switch, s.records) := by
    unfold State.followDemand
    dsimp only
    (repeat' split) <;> rfl
  have h : (s.followViews.switch, s.followViews.records) = (s.switch, s.records) := by
    unfold State.followViews
    rw [each_keeps (fun s => (s.switch, s.records)) _ _ hd,
      each_keeps (fun s => (s.switch, s.records)) _ _ hr]
  exact Prod.mk.inj h

theorem freeKeys_frame : s.freeKeys.ends = s.ends ∧ s.freeKeys.records = s.records := by
  unfold State.freeKeys
  exact ⟨each_keeps State.ends _ _ (fun s e => updBell_ends s e _) s,
    each_keeps State.records _ _ (fun s e => updBell_records s e _) s⟩

/-- The end of the automatic arrivals that wait changes proofs alone, which a view shows nothing of. -/
theorem shown_endWaits : shown (s.endWaits.view e) = shown (s.view e) := by
  have hp (f : Proof → Proof) (s : State) (x : EndNo) :
      shown ((s.updProof x f).view e) = shown (s.view e) := by
    by_cases h : e = x
    · subst h; simp [State.updProof, shown]
    · rw [State.updProof, view_updView_ne _ h]
  unfold State.endWaits
  exact each_keeps (fun s => shown (s.view e)) _ _ (hp _) s

theorem records_endWaits : s.endWaits.records = s.records := by
  unfold State.endWaits State.updProof State.updView
  exact each_keeps State.records _ _ (fun s e => updEnd_records s e _) s

theorem shown_comeIn (c : SwitchCause) : shown ((s.comeIn c).view e) = shown (s.view e) := by
  unfold State.comeIn
  dsimp only
  rw [shown_endWaits, view_of_ends (freeKeys_frame _).1, view_of_ends (register_ends _ _),
    view_of_ends (updSwitch_ends _ _)]

theorem grows_comeIn (c : SwitchCause) : Grows s.records (s.comeIn c).records := by
  unfold State.comeIn
  dsimp only
  rw [records_endWaits, (freeKeys_frame _).2]
  exact Grows.refl.take _

theorem shown_forceIn (c : SwitchCause) : shown ((s.forceIn c).view e) = shown (s.view e) := by
  unfold State.forceIn State.markKey
  (repeat' split)
  · rw [view_of_ends (updSwitch_ends _ _), shown_comeIn]
  · rw [view_of_ends (updSwitch_ends _ _)]
  · rfl

theorem grows_forceIn (c : SwitchCause) : Grows s.records (s.forceIn c).records := by
  unfold State.forceIn State.markKey
  (repeat' split)
  · rw [updSwitch_records]; exact grows_comeIn s c
  · rw [updSwitch_records]; exact .refl
  · exact .refl

theorem shown_judgeSwitch : shown (s.judgeSwitch.view e) = shown (s.view e) := by
  unfold State.judgeSwitch
  (repeat' split)
  · exact shown_forceIn s e _
  · exact shown_comeIn s e _
  · rfl

theorem grows_judgeSwitch : Grows s.records s.judgeSwitch.records := by
  unfold State.judgeSwitch
  (repeat' split)
  · exact grows_forceIn s _
  · exact grows_comeIn s _
  · exact .refl

/-- A switched-in station has no switching to judge. -/
theorem judgeSwitch_inn (h : s.switchedOut = false) : s.judgeSwitch = s := by
  have hp : s.switch.state ≠ .inPending := by
    intro hs
    simp [State.switchedOut, hs] at h
  simp [State.judgeSwitch, State.pairClosed, State.switchInDone, h, beq_false_of_ne hp]

theorem judgeProving_frame (b : State) :
    (s.judgeProving b).ends = s.ends ∧ (s.judgeProving b).records = s.records := by
  unfold State.judgeProving; split <;> exact ⟨rfl, rfl⟩

theorem evaluate_frame (found : List RecordId) :
    (s.evaluate found).ends = s.ends ∧ (s.evaluate found).records = s.records := by
  simp only [State.evaluate, State.commandOutputs, State.latchDrops, State.judgeLanes]
  split <;> exact ⟨rfl, rfl⟩

theorem offerChanges_frame (s0 : State) :
    (s.offerChanges s0).ends = s.ends ∧ (s.offerChanges s0).records = s.records := by
  have hs (s : State) (x : EndNo) :
      ((s.offerSectionState x).ends, (s.offerSectionState x).records) = (s.ends, s.records) := by
    unfold State.offerSectionState
    (repeat' split) <;> rfl
  have hr (s : State) : (s.offerEndReport.ends, s.offerEndReport.records) = (s.ends, s.records) := by
    unfold State.offerEndReport
    (repeat' split) <;> rfl
  have he := each_keeps (fun s => (s.ends, s.records)) (s.statesDue s0) _ hs s
  apply Prod.mk.inj
  unfold State.offerChanges
  dsimp only
  split
  · rw [hr]; exact he
  · exact he

end Close

section React
variable {s : State} (s0 : State) (e : EndNo)

theorem view_followChanges (h : s.Calm) : (s.followChanges s0).view e = s.view e := by
  rw [followChanges_calm s0 h]
  split
  · exact view_followViews s e
  · rfl

theorem followChanges_frame (h : s.Calm) :
    (s.followChanges s0).switch = s.switch ∧ (s.followChanges s0).records = s.records := by
  rw [followChanges_calm s0 h]
  split
  · exact followViews_frame s
  · exact ⟨rfl, rfl⟩

/-- The judgements of the station in which no damage waits to be found. -/
theorem judgeStation_calm (h : s.Calm) :
    s.judgeStation s0 =
      (if (s.followChanges s0).working then (s.followChanges s0).judgeSwitch
        else s.followChanges s0).judgeProving s0 := by
  have hf := calm_of_rest (rest_followChanges s0 h) h
  unfold State.judgeStation
  simp only [switchVerify_calm s0 hf, provingVerify_calm s0 hf]

theorem shown_judgeStation (h : s.Calm) :
    shown ((s.judgeStation s0).view e) = shown (s.view e) := by
  rw [judgeStation_calm s0 h, view_of_ends (judgeProving_frame _ s0).1, ← view_followChanges s0 e h]
  split
  · exact shown_judgeSwitch _ e
  · rfl

theorem view_judgeStation_inn (h : s.Calm) (ho : s.switchedOut = false) :
    (s.judgeStation s0).view e = s.view e := by
  have hf : (s.followChanges s0).switchedOut = false :=
    (switchedOut_of_switch (followChanges_frame s0 h).1).trans ho
  rw [judgeStation_calm s0 h, view_of_ends (judgeProving_frame _ s0).1, judgeSwitch_inn _ hf, ite_self,
    view_followChanges s0 e h]

theorem grows_judgeStation (h : s.Calm) : Grows s.records (s.judgeStation s0).records := by
  rw [judgeStation_calm s0 h, (judgeProving_frame _ s0).2, ← (followChanges_frame s0 h).2]
  split
  · exact grows_judgeSwitch _
  · exact .refl

/-- The close of an event leaves the ends and the record unit as its judgements do. -/
theorem react_frame (h : s.Calm) :
    (s.react s0).ends = ((s.answerChanges s0).judgeStation s0).ends ∧
      (s.react s0).records = ((s.answerChanges s0).judgeStation s0).records := by
  have ho := offerChanges_frame (((s.answerChanges s0).judgeStation s0).evaluate []) s0
  have he := evaluate_frame ((s.answerChanges s0).judgeStation s0) []
  rw [State.react, closeEvent_calm s0 false [] h]
  exact ⟨ho.1.trans he.1, ho.2.trans he.2⟩

/-- What a view shows of its section when an event is closed is what the section unit's answers made of it. -/
theorem shown_react (h : s.Calm) :
    shown ((s.react s0).view e) = shown ((s.answerChanges s0).view e) := by
  rw [view_of_ends (react_frame s0 h).1,
    shown_judgeStation s0 e (calm_of_rest (rest_answerChanges s0 h) h)]

theorem view_react_inn (h : s.Calm) (ho : (s.answerChanges s0).switchedOut = false) :
    (s.react s0).view e = (s.answerChanges s0).view e := by
  rw [view_of_ends (react_frame s0 h).1,
    view_judgeStation_inn s0 e (calm_of_rest (rest_answerChanges s0 h) h) ho]

theorem grows_react (h : s.Calm) : Grows (s.answerChanges s0).records (s.react s0).records := by
  rw [(react_frame s0 h).2]
  exact grows_judgeStation s0 (calm_of_rest (rest_answerChanges s0 h) h)

theorem grows_each {f : State → EndNo → State} (hf : ∀ s x, s.Calm → ActsAt x s (f s x))
    (hr : ∀ s x, s.Calm → (f s x).rest = s.rest) (xs : List EndNo) (h : s.Calm) :
    Grows s.records (s.each xs f).records := by
  unfold State.each
  induction xs generalizing s with
  | nil => exact .refl
  | cons x xs ih => exact (hf s x h).records.trans (ih (calm_of_rest (hr s x h) h))

/-- The notices and entries taken before the close of an event stand after the section unit's answers. -/
theorem grows_answerChanges (h : s.Calm) : Grows s.records (s.answerChanges s0).records := by
  have hs := rest_settledReactions s0 h
  have h1 : Grows s.records (s.settledReactions s0).records := by
    refine grows_each (fun s x hc => ?_) (fun s x hc => ?_) allEnds h
    · (repeat' split) <;> first
        | exact .refl x s
        | exact actsAt_afterSettled x _ _ hc
    · (repeat' split) <;> simp [rest_afterSettled _ _ _ hc]
  unfold State.answerChanges
  simp only [followVerify_calm s0 h]
  split
  · obtain ⟨m, q, hm, hq, ht, -⟩ := trackReactions_at s0 0 (calm_of_rest hs h)
    have hp := (actsAt_followProof (s0 := s0) (e := 0) (calm_of_rest (hm.rest.trans hs) h)).records
    have ha := (actsAt_autoOccupy 0 q s0).records
    exact ((((h1.trans hm.records).trans hp).trans hq.records).trans ha).trans ht.records
  · exact .refl

/-- A notice queued when an event is closed is queued after the close. -/
theorem mem_notices_react (h : s.Calm) {x : Notice} (hx : x ∈ s.records.notices) :
    x ∈ (s.react s0).records.notices :=
  ((grows_answerChanges s0 h).trans (grows_react s0 h)).mem hx

/-- Changes made in turn, none of which changes the state they begin in, leave it. -/
theorem each_idle {α : Type} (xs : List α) {f : State → α → State} (h : ∀ x, f s x = s) :
    s.each xs f = s := by
  unfold State.each
  induction xs with
  | nil => rfl
  | cons x xs ih => rw [List.foldl_cons, h, ih]

/-- An event that leaves the ends has settled no request. -/
theorem settledReactions_of_ends (h : s.ends = s0.ends) : s.settledReactions s0 = s := by
  unfold State.settledReactions
  refine each_idle allEnds fun e => ?_
  split
  · next c p _ hp =>
    rw [view_of_ends h e, hp, beq_self_eq_true, if_pos rfl]
  · rfl

/-- The answers to an event that leaves the ends, while the section unit takes events. -/
theorem answerChanges_of_ends (h : s.Calm) (he : s.ends = s0.ends) (hw : s.working = true) :
    s.answerChanges s0 = s.trackReactions s0 := by
  unfold State.answerChanges
  simp only [followVerify_calm s0 h, hw, settledReactions_of_ends s0 he, ↓reduceIte]

/-- The close of an event that leaves the ends, seen from one end, while the section unit takes events: its
proof is followed in a state `m` and its occupation judged in a state `q`. -/
theorem react_at (h : s.Calm) (he : s.ends = s0.ends) (hw : s.working = true) :
    ∃ m q, Elsewhere e s m ∧ Elsewhere e (m.followProof s0 e) q ∧
      shown ((s.react s0).view e) = shown ((q.autoOccupy s0 e).view e) ∧
      (s.switchedOut = false → (s.react s0).view e = (q.autoOccupy s0 e).view e ∧
        m.records.notices.length ≤ s.records.notices.length + 5) ∧
      Grows (m.followProof s0 e).records (s.react s0).records := by
  obtain ⟨m, q, hm, hq, ht, hlen⟩ := trackReactions_at s0 e h
  have ha := actsAt_autoOccupy e q s0
  have hp := actsAt_followProof (s0 := s0) (e := e) (calm_of_rest hm.rest h)
  have hanswer := answerChanges_of_ends s0 h he hw
  rw [← hanswer] at ht
  have hswitch : (s.answerChanges s0).switch = s.switch := by
    rw [ht.switch, ha.switch, hq.switch, hp.switch, hm.switch]
  refine ⟨m, q, hm, hq, (shown_react s0 e h).trans (congrArg shown ht.view), fun ho => ⟨?_, hlen ho⟩,
    ((hq.records.trans ha.records).trans ht.records).trans (grows_react s0 h)⟩
  exact (view_react_inn s0 e h ((switchedOut_of_switch hswitch).trans ho)).trans ht.view

end React

end Sys2Proof.EndEffects
end

section
/-! A sample as an event of the part: the state it makes before the event is closed, and the statements about
the sample, the failures of a channel and its reference. -/

namespace Sys2Proof.TrackSensing

open Sys2Proof Sys2Proof.Machine Sys2Proof.EndEffects

/-! ## The notices of a sample (R7, R9, R11, R142) -/

/-- What closing an event leaves alone, without the tallies of the contained faults. -/
def restApart (s : State) : RestFields :=
  { s.rest with integrity := { s.integrity with tallies := Vector.replicate 7 0 } }

theorem restApart_contained (s : State) (k : Contained) (n : Nat) :
    restApart (s.contained k n) = restApart s := by
  have h := rest_notify s k.notice n
  unfold restApart
  rw [← h]
  rfl

theorem restApart_trackNotice (s : State) (c : ChanNo) (ev : TrackEvent) :
    restApart (s.trackNotice c ev) = restApart s := by
  cases ev with
  | bob =>
    exact congrArg (fun r : RestFields =>
      { r with integrity := { s.integrity with tallies := Vector.replicate 7 0 } }) (rest_notify s _ _)
  | failed _ => exact restApart_contained s _ _
  | lowFeed => exact restApart_contained s _ _
  | highFeed => exact restApart_contained s _ _
  | _ => rfl

/-- The notices of a sample leave the ends, the switch record and the service state. -/
theorem trackNotice_frame (s : State) (c : ChanNo) (ev : TrackEvent) :
    ((s.trackNotice c ev).ends, (s.trackNotice c ev).switch, (s.trackNotice c ev).service) =
      (s.ends, s.switch, s.service) := by
  cases ev <;> rfl

/-- A change of a state that each of the changes made in turn leaves room for can be made after them. -/
theorem each_comm {α : Type} (g : State → State) (f : State → α → State)
    (h : ∀ s x, f (g s) x = g (f s x)) (xs : List α) (s : State) :
    (g s).each xs f = g (s.each xs f) := by
  unfold State.each
  induction xs generalizing s with
  | nil => rfl
  | cons x xs ih => rw [List.foldl_cons, List.foldl_cons, h, ih]

/-- The settle count's event raises no notice. -/
theorem each_settled (s : State) (c : ChanNo) (ch : Channel) (k : ChannelCfg) (xs : List TrackEvent) :
    (s.each ((ch.settleStep k).2 ++ xs) fun s ev => s.trackNotice c ev) =
      s.each xs fun s ev => s.trackNotice c ev := by
  rcases settleStep_events ch k with h | h <;> rw [h] <;> rfl

/-! ## The state that a sample makes -/

/-- A state with a channel's sample put in: its moment, and the channel given. -/
def withSample (c : ChanNo) (at_ : Nat) (ch : Channel) (s : State) : State :=
  { s with
    clock := at_
    sampledAt := upd s.sampledAt c fun _ => at_
    channels := upd s.channels c fun _ => ch }

/-- The moment of the sample a channel takes next. -/
def sampleTime (s : State) (c : ChanNo) : Nat := max s.clock (s.sampleDue c)

/-- The notices and contained faults of a sample reported. -/
def noted (s : State) (c : ChanNo) (x : Sample) : State :=
  s.each (s.sampled c x).2 fun s ev => s.trackNotice c ev

/-- The state that a sample of a sound channel makes, before the event is closed. -/
def sampledState (s : State) (c : ChanNo) (x : Sample) : State :=
  withSample c (sampleTime s c) (s.sampled c x).1 (noted s c x)

section Sampled
variable {s : State} {c : ChanNo} {x : Sample}

/-- A sound channel's sample where no damage waits to be found. -/
theorem takeSample_sound (h : s.Calm) (hb : s.badStatic (.channel c) = false) :
    s.takeSample c x = (sampledState s c x).react s := by
  have hn := each_comm (withSample c (sampleTime s c) (s.sampled c x).1) (fun s ev => s.trackNotice c ev)
    (fun s ev => by cases ev <;> rfl) (s.sampled c x).2 s
  unfold sampledState noted
  rw [← hn]
  have hreach : (s.reach (s.sampleDue c)).Calm := h
  unfold State.takeSample
  simp only [verify_calm hreach]
  exact if_neg (by rw [Bool.not_eq_true]; exact hb)

/-- A channel whose static part is poisoned takes no sample. -/
theorem takeSample_poisoned (h : s.Calm) (hb : s.badStatic (.channel c) = true) :
    s.takeSample c x = (withSample c (sampleTime s c) (s.channel c) s).react s := by
  have hreach : (s.reach (s.sampleDue c)).Calm := h
  have hch : upd s.channels c (fun _ => s.channel c) = s.channels := by
    apply look_ext
    intro i
    rw [look_upd]
    split
    · next hi => rw [← hi]; rfl
    · rfl
  unfold State.takeSample
  simp only [verify_calm hreach]
  refine (if_pos hb).trans ?_
  unfold withSample
  rw [hch]
  rfl

/-- An event of the table occurs where the sample brings it. -/
theorem takeSampleIf_brought {ev : TrackEvent} (hl : s.live = true) (h : s.Calm)
    (hb : s.badStatic (.channel c) = false) (he : ev ∈ (s.sampled c x).2) :
    s.takeSampleIf c x ev = (sampledState s c x).react s := by
  rw [State.takeSampleIf, if_pos (by simp [hl, hb, he]), takeSample_sound h hb]

variable (s c x)

theorem rest_withSample (n : Nat) (ch : Channel) : (withSample c n ch s).rest =
    { s.rest with
      clock := n
      sampledAt := upd s.sampledAt c fun _ => n
      channels := upd s.channels c fun _ => ch } := rfl

theorem rest_noted : (noted s c x).rest =
    { s.rest with integrity := { s.integrity with tallies := (noted s c x).integrity.tallies } } := by
  have h : restApart (noted s c x) = restApart s :=
    each_keeps restApart _ _ (fun s ev => restApart_trackNotice s c ev) s
  have hback (t : State) : t.rest = { restApart t with
      integrity := { (restApart t).integrity with tallies := t.integrity.tallies } } := rfl
  rw [hback, h]
  rfl

/-- Everything of the state that a sample makes but what closing an event may change. -/
theorem rest_sampledState : (sampledState s c x).rest =
    { s.rest with
      clock := sampleTime s c
      sampledAt := upd s.sampledAt c fun _ => sampleTime s c
      channels := upd s.channels c fun _ => (s.sampled c x).1
      integrity := { s.integrity with tallies := (noted s c x).integrity.tallies } } := by
  have h := rest_noted s c x
  have hc : (noted s c x).channels = s.channels := congrArg RestFields.channels h
  have ha : (noted s c x).sampledAt = s.sampledAt := congrArg RestFields.sampledAt h
  rw [sampledState, rest_withSample, h, hc, ha]

theorem records_sampledState : (sampledState s c x).records = (noted s c x).records := rfl

theorem sampledState_frame : (sampledState s c x).ends = s.ends ∧
    (sampledState s c x).switch = s.switch ∧ (sampledState s c x).service = s.service := by
  have h := each_keeps (fun s => (s.ends, s.switch, s.service)) (s.sampled c x).2 _
    (fun s ev => trackNotice_frame s c ev) s
  simp only [Prod.mk.injEq] at h
  exact h

variable {s c x}

theorem sampledState_calm (h : s.Calm) : (sampledState s c x).Calm := by
  have hi := congrArg RestFields.integrity (rest_sampledState s c x)
  exact (congrArg Integrity.damaged hi).trans h

/-- Everything of the state after the sample but what closing an event may change. -/
theorem rest_sample_react (h : s.Calm) :
    ((sampledState s c x).react s).rest = (sampledState s c x).rest :=
  rest_react s (sampledState_calm h)

theorem channel_sample_react (h : s.Calm) (b : ChanNo) :
    ((sampledState s c x).react s).channel b = if c = b then (s.sampled c x).1 else s.channel b := by
  have hc := congrArg RestFields.channels ((rest_sample_react h).trans (rest_sampledState s c x))
  exact (congrArg (look · b) hc).trans (look_upd _ c b _)

theorem channel_sample_react_same (h : s.Calm) :
    ((sampledState s c x).react s).channel c = (s.sampled c x).1 := by
  rw [channel_sample_react h, if_pos rfl]

theorem tallies_sample_react (h : s.Calm) :
    ((sampledState s c x).react s).integrity.tallies = (noted s c x).integrity.tallies :=
  congrArg (fun r => r.integrity.tallies) ((rest_sample_react h).trans (rest_sampledState s c x))

/-- A notice of the sample stands when its event has been closed. -/
theorem mem_notices_sample_react (h : s.Calm) {a : Notice} (ha : a ∈ (noted s c x).records.notices) :
    a ∈ ((sampledState s c x).react s).records.notices :=
  mem_notices_react s (sampledState_calm h) ha

/-- A sample that brings one event beside the settle count's reports that one. -/
theorem noted_of_events {evs : List TrackEvent}
    (h : (s.sampled c x).2 = ((s.channel c).settleStep (s.channelCfg c)).2 ++ evs) :
    noted s c x = s.each evs fun s ev => s.trackNotice c ev := by
  rw [noted, h, each_settled]

end Sampled

/-! ## TRACK_SAMPLE -/

/-- Settles O8: a sound channel by `rest_sampledState`, a poisoned one by `rest_withSample`, each with the close
of its event leaving the rest. -/
theorem trackSampleTaken : Obligations.TrackSampleTaken := by
  intro c x s hl h
  have hx : exec (.trackSample c x) s = .next (s.takeSample c x) := by
    show Host.Outcome.next (if s.live then s.takeSample c x else s) = _
    rw [if_pos hl]
  refine ⟨_, hx, ?_⟩
  cases hb : s.badStatic (.channel c) with
  | false =>
    rw [takeSample_sound h hb]
    have hr := (rest_sample_react h).trans (rest_sampledState s c x)
    have hclock : ((sampledState s c x).react s).clock = sampleTime s c := congrArg RestFields.clock hr
    refine ⟨hclock, hr.trans ?_⟩
    rw [hclock, tallies_sample_react h]
    rfl
  | true =>
    rw [takeSample_poisoned h hb]
    have hw : (withSample c (sampleTime s c) (s.channel c) s).Calm := h
    have hr := (rest_react s hw).trans (rest_withSample s c _ _)
    have hclock : ((withSample c (sampleTime s c) (s.channel c) s).react s).clock = sampleTime s c :=
      congrArg RestFields.clock hr
    have hint : ((withSample c (sampleTime s c) (s.channel c) s).react s).integrity = s.integrity :=
      congrArg RestFields.integrity hr
    refine ⟨hclock, hr.trans ?_⟩
    rw [hclock, hint]
    rfl

/-! ## The failures of a channel (R8, R11) -/

/-- A sample that does not count for the interval is its decision with the interval count at 0. -/
theorem sample_valid_ended {ch : Channel} {k : ChannelCfg} {n : Fin 1024}
    (h : ¬CountsFor ch.decision (decided ch k n).1) :
    ch.sample k (.valid n) =
      ({ (decided ch k n).1 with interval := 0 }, (ch.settleStep k).2 ++ (decided ch k n).2) := by
  rw [sample_valid, intervalStep_ended k h, List.append_nil]

/-- CLEAR above Th for the Nd-th sample together: the channel fails (R8). -/
theorem decided_highValue {ch : Channel} {k : ChannelCfg} {n : Fin 1024} (hd : ch.decision = .clear)
    (hlo : dropThreshold k ch.r ≤ filtered k.k ch.f n.val)
    (hhi : highThreshold k ch.r < filtered k.k ch.f n.val) (hn : k.nd ≤ ch.high + 1) :
    decided ch k n = ((converted ch k n).fail .highValue, [.failed .highValue]) := by
  rw [decided, converted_eq]
  simp [Channel.decide, hd, Channel.decideClear, Nat.not_lt.mpr hlo, hhi, hn]

/-- The third invalid sample together: the channel fails (R11). -/
theorem sample_converter {ch : Channel} {k : ChannelCfg} (hd : ch.decision ≠ .failed)
    (hr : 2 ≤ ch.faultRun) : ch.sample k .fault =
      ({ (ch.settleStep k).1 with faultRun := 3, interval := 0 }.fail .converter,
        (ch.settleStep k).2 ++ [.failed .converter]) := by
  simp only [Channel.sample, Channel.invalidSample]
  rw [settleStep_eq ch k]
  have hge : 3 ≤ ch.faultRun + 1 := by omega
  simp [hd, hge]

/-- A channel that has failed for a cause, with its counts at 0. -/
def HasFailed (ch : Channel) (why : FailCause) : Prop :=
  ch.decision = .failed ∧ ch.cause = some why ∧ ch.drop = 0 ∧ ch.pick = 0 ∧ ch.high = 0 ∧
    ch.interval = 0

/-- A sample that fails the channel is one more TRACK FAILED, counted and told. -/
theorem trackFailed_told {s : State} {c : ChanNo} {x : Sample} {why : FailCause} (h : s.Calm)
    (hev : (s.sampled c x).2 = ((s.channel c).settleStep (s.channelCfg c)).2 ++ [.failed why]) :
    look ((sampledState s c x).react s).integrity.tallies 0 =
        min (look s.integrity.tallies 0 + 1) 255 ∧
      (s.records.notices.length < 32 →
        ⟨.trackFailed, c.val + 1, s.records.time, s.records.timeValid⟩
          ∈ ((sampledState s c x).react s).records.notices) := by
  have hn : noted s c x = s.contained .trackFailed (c.val + 1) := noted_of_events hev
  refine ⟨?_, fun hlen => mem_notices_sample_react h ?_⟩
  · rw [tallies_sample_react h, hn]
    exact look_upd_same _ _ _
  · rw [hn]
    exact mem_notify_new _ _ hlen

/-- Settles O10: `decided_highValue` and `sample_converter` are the two samples, `trackFailed_told` what both
bring the station. -/
theorem channelFailures : Obligations.ChannelFailures := by
  intro c n s hl h hb ch k f failed
  have hfailed {x : Sample} {why : FailCause} (hs : HasFailed (s.sampled c x).1 why)
      (hev : (s.sampled c x).2 = (ch.settleStep k).2 ++ [.failed why]) :
      failed ((sampledState s c x).react s) why := by
    obtain ⟨hd, hc, hdrop, hpick, hhigh, hint⟩ := hs
    obtain ⟨htally, hnotice⟩ := trackFailed_told h hev
    simp only [failed, channel_sample_react_same h]
    exact ⟨hd, hc, hdrop, hpick, hhigh, hint, htally, hnotice⟩
  refine ⟨fun hd hlo hhi hn => ?_, fun hd hr => ?_⟩
  · have hdec := decided_highValue hd hlo hhi hn
    have hsample : s.sampled c (.valid n) = _ := sample_valid_ended (ch := ch) (k := k) (n := n)
      (fun hc => by simp [CountsFor, hdec, Channel.fail] at hc)
    rw [hdec] at hsample
    refine ⟨_, congrArg Host.Outcome.next (takeSampleIf_brought hl h hb ?_), hfailed ?_ ?_⟩
    · simp [hsample]
    · rw [hsample]; exact ⟨rfl, rfl, rfl, rfl, rfl, rfl⟩
    · rw [hsample]
  · have hsample : s.sampled c .fault = _ := sample_converter (k := k) hd hr
    refine ⟨_, congrArg Host.Outcome.next (takeSampleIf_brought hl h hb ?_), hfailed ?_ ?_⟩
    · simp [hsample]
    · rw [hsample]; exact ⟨rfl, rfl, rfl, rfl, rfl, rfl⟩
    · rw [hsample]

/-! ## The reference and the settle count (R6, R7, R15) -/

/-- CLEAR between Td and Th: the channel stays CLEAR with the high count at 0 (R8). -/
theorem decided_clear {ch : Channel} {k : ChannelCfg} {n : Fin 1024} (hd : ch.decision = .clear)
    (hlo : dropThreshold k ch.r ≤ filtered k.k ch.f n.val)
    (hhi : filtered k.k ch.f n.val ≤ highThreshold k ch.r) :
    decided ch k n = ({ converted ch k n with high := 0 }, []) := by
  rw [decided, converted_eq]
  simp [Channel.decide, hd, Channel.decideClear, Nat.not_lt.mpr hlo, Nat.not_lt.mpr hhi]

/-- LOW FEED or HIGH FEED of a sample that makes the reference update is told and counted once, where the update
enters the bound. -/
theorem feed_told {s : State} {c : ChanNo} {x : Sample} {u : Channel} (h : s.Calm)
    (hev : (s.sampled c x).2 =
      ((s.channel c).settleStep (s.channelCfg c)).2 ++ (u.updateReference (s.channelCfg c)).2)
    {ev : TrackEvent} {k : Contained}
    (hk : ev = .lowFeed ∧ k = .lowFeed ∨ ev = .highFeed ∧ k = .highFeed) :
    (ev ∉ (u.updateReference (s.channelCfg c)).2 →
      look ((sampledState s c x).react s).integrity.tallies k.index =
        look s.integrity.tallies k.index) ∧
    (ev ∈ (u.updateReference (s.channelCfg c)).2 →
      look ((sampledState s c x).react s).integrity.tallies k.index =
          min (look s.integrity.tallies k.index + 1) 255 ∧
        (s.records.notices.length < 32 →
          ⟨k.notice, c.val + 1, s.records.time, s.records.timeValid⟩
            ∈ ((sampledState s c x).react s).records.notices)) := by
  have hn := noted_of_events hev
  have htaken : noted s c x = s.contained k (c.val + 1) →
      look ((sampledState s c x).react s).integrity.tallies k.index =
          min (look s.integrity.tallies k.index + 1) 255 ∧
        (s.records.notices.length < 32 →
          ⟨k.notice, c.val + 1, s.records.time, s.records.timeValid⟩
            ∈ ((sampledState s c x).react s).records.notices) := by
    intro hc
    refine ⟨?_, fun hlen => mem_notices_sample_react h ?_⟩
    · rw [tallies_sample_react h, hc]
      exact look_upd_same _ _ _
    · rw [hc]
      exact mem_notify_new _ _ hlen
  rw [tallies_sample_react h]
  rw [tallies_sample_react h] at htaken
  rcases updateReference_events u (s.channelCfg c) with he | he | he <;> rw [he] at hn ⊢ <;>
    rcases hk with ⟨rfl, rfl⟩ | ⟨rfl, rfl⟩
  · exact ⟨fun _ => by rw [hn]; rfl, fun hm => by simp at hm⟩
  · exact ⟨fun _ => by rw [hn]; rfl, fun hm => by simp at hm⟩
  · exact ⟨fun hm => by simp at hm, fun _ => htaken hn⟩
  · exact ⟨fun _ => by rw [hn]; exact look_upd_ne _ _ (by decide), fun hm => by simp at hm⟩
  · exact ⟨fun _ => by rw [hn]; exact look_upd_ne _ _ (by decide), fun hm => by simp at hm⟩
  · exact ⟨fun hm => by simp at hm, fun _ => htaken hn⟩

/-- Settles O11: the sample stays CLEAR (`decided_clear`), so that the hundredth's update is the one of R7
(`sameReference_hundredth`) and its events are all that is told (`feed_told`). -/
theorem referenceAndSettling : Obligations.ReferenceAndSettling := by
  intro c n x s hl h hb ch k f u told
  refine ⟨fun hd hlo hhi hi => ?_, fun hs => ?_⟩
  · have hdec := decided_clear hd hlo hhi
    have hconv := converted_eq ch k n
    have hcount : CountsFor ch.decision (decided ch k n).1 := by
      rw [hdec, hconv]; exact ⟨hd, hd, rfl⟩
    have hint := decided_interval hcount
    have h100 : 100 ≤ (decided ch k n).1.interval + 1 := by rw [hint]; omega
    have hev : (s.sampled c (.valid n)).2 = (ch.settleStep k).2 ++ u.2 := by
      have hu := congrArg (fun r => r.2.2.2.2) (referenceOf_hundredth ch k n)
      simp only [referenceOf] at hu
      show (ch.sample k (.valid n)).2 = _
      rw [sample_valid, intervalStep_hundredth k hcount h100, hu, hdec, List.nil_append]
    have hmade : TrackEvent.reference ∈ (s.sampled c (.valid n)).2 := by
      rw [hev]
      rcases updateReference_events { ch with f := f } k with he | he | he <;> simp [u, he]
    obtain ⟨hr, hclamp, hlow, hhigh, -⟩ := sameReference_hundredth hcount h100
    have hdecision : (ch.sample k (.valid n)).1.decision = .clear := by
      rw [(sample_valid_frame ch k n).2.1, hdec, hconv]; exact hd
    refine ⟨_, congrArg Host.Outcome.next (takeSampleIf_brought hl h hb hmade), ?_⟩
    simp only [channel_sample_react_same h]
    exact ⟨interval_hundredth hcount h100, hr, hclamp, hlow, hhigh, hdecision,
      feed_told h hev (.inl ⟨rfl, rfl⟩), feed_told h hev (.inr ⟨rfl, rfl⟩)⟩
  · have hev : TrackEvent.settled ∈ (s.sampled c x).2 := by
      have hset : (ch.settleStep k).2 = [.settled] := by rw [settleStep_settles hs]
      show _ ∈ (ch.settleStep k).2 ++ _
      rw [hset]
      exact List.mem_cons_self
    have hcfg : ((sampledState s c x).react s).cfg = s.cfg :=
      congrArg RestFields.cfg ((rest_sample_react h).trans (rest_sampledState s c x))
    have hsettle : (s.sampled c x).1.settle = k.np := by
      show (ch.sample k x).1.settle = _
      rw [sample_settle, settleStep_settles hs]
    refine ⟨_, congrArg Host.Outcome.next (takeSampleIf_brought hl h hb hev), ?_,
      channel_sample_react_same h⟩
    rw [State.settled, channel_sample_react_same h, hsettle, State.channelCfg, hcfg]
    exact beq_self_eq_true _

end Sys2Proof.TrackSensing
end

section
/-! What a decision of a channel brings the section unit: automatic occupation and the arrival proofs. -/

namespace Sys2Proof.TrackSensing

open Sys2Proof Sys2Proof.Machine Sys2Proof.EndEffects

/-! ## The tracks as the station judges them (R13, R43, R44) -/

/-- The state in which a sound channel's track is known, by the channel's decision. -/
def knownAs : Decision → Option TrackState
  | .clear => some .clear
  | .dropping => some .shunted
  | .occupied => some .occupied
  | .picking => some .occupied
  | .failed => none

theorem track_here {s : State} {c : ChanNo} (hb : s.badChannel c = false) :
    s.track (.here c) = knownAs (s.channel c).decision := by
  simp only [State.track, State.publishedState, hb, Bool.false_eq_true, ↓reduceIte]
  cases (s.channel c).decision <;> rfl

/-- A track is judged on the configuration, the poison, its channel where it has one here, and the line
unit's station records and subscriptions where it is remote. -/
theorem track_congr {s t : State} {u : Track} (hcfg : t.cfg = s.cfg)
    (hp : t.integrity.poisoned = s.integrity.poisoned) (hst : t.line.stations = s.line.stations)
    (hsub : t.line.subs = s.line.subs) (hch : ∀ c, u = .here c → t.channel c = s.channel c) :
    t.track u = s.track u := by
  cases u with
  | here c =>
    have hbad : t.badChannel c = s.badChannel c := by
      simp only [State.badChannel, State.badStatic, State.isPoisoned, hp]
    simp only [State.track, State.publishedState, hbad, hch c rfl]
  | far i =>
    simp only [State.track, State.badStatic, State.isPoisoned, State.stationRec, State.sub, hcfg, hp,
      hst, hsub]
    rfl

theorem track_of_rest {s t : State} (h : t.rest = s.rest) (u : Track) : t.track u = s.track u :=
  track_congr (congrArg RestFields.cfg h) (congrArg (·.integrity.poisoned) h)
    (congrArg (·.line.stations) h) (congrArg (·.line.subs) h)
    (fun c _ => congrArg (fun r : RestFields => look r.channels c) h)

theorem endCfg_of_rest {s t : State} (h : t.rest = s.rest) (e : EndNo) : t.endCfg e = s.endCfg e :=
  congrArg (fun r : RestFields => look r.cfg.ends e) h

/-- The track of one channel alone has moved, from one known state to another. -/
structure TrackMoves (c : ChanNo) (a b : TrackState) (s0 s : State) : Prop where
  before : s0.track (.here c) = some a
  after : s.track (.here c) = some b
  others : ∀ u, u ≠ .here c → s.track u = s0.track u

/-- The tracks after a sample of a channel whose record is sound in both parts. -/
theorem trackMoves_sample {s : State} {c : ChanNo} {x : Sample} {a b : TrackState}
    (hb : s.badStatic (.channel c) = false) (hp : s.isPoisoned (.channel c) = false)
    (ha : knownAs (s.channel c).decision = some a)
    (hd : knownAs (s.sampled c x).1.decision = some b) :
    TrackMoves c a b s (sampledState s c x) := by
  have hr := rest_sampledState s c x
  have hpoison : (sampledState s c x).integrity.poisoned = s.integrity.poisoned :=
    congrArg (·.integrity.poisoned) hr
  have hbad : s.badChannel c = false := by rw [State.badChannel, hb, hp]; rfl
  have hbad' : (sampledState s c x).badChannel c = false := by
    simpa only [State.badChannel, State.badStatic, State.isPoisoned, hpoison] using hbad
  have hch (b : ChanNo) : (sampledState s c x).channel b =
      if c = b then (s.sampled c x).1 else s.channel b :=
    (congrArg (fun r : RestFields => look r.channels b) hr).trans (look_upd _ c b _)
  refine ⟨(track_here hbad).trans ha, (track_here hbad').trans (by rw [hch, if_pos rfl]; exact hd),
    fun u hu => ?_⟩
  refine track_congr (congrArg RestFields.cfg hr) hpoison (congrArg (·.line.stations) hr)
    (congrArg (·.line.subs) hr) fun b hub => ?_
  rw [hch, if_neg fun hcb => hu (by rw [hub, hcb])]

/-! ## The progress of a proof (R108) -/

section Progress
variable {s0 s : State} {ts : List Track} {c : ChanNo} {i p : Nat} {a b : TrackState}

/-- A fold in which one item alone acts comes to what that item does. -/
theorem foldl_single {α β : Type} {f : β → α → β} {i : α} {xs : List α} (hn : xs.Nodup) (hi : i ∈ xs)
    (h : ∀ x j, j ≠ i → f x j = x) (x : β) : xs.foldl f x = f x i := by
  have hidle : ∀ (ys : List α), i ∉ ys → ∀ x, ys.foldl f x = x := by
    intro ys
    induction ys with
    | nil => exact fun _ _ => rfl
    | cons y ys ih =>
      intro hy x
      obtain ⟨hne, hys⟩ := not_or.mp (mt List.mem_cons.mpr hy)
      rw [List.foldl_cons, h x y (Ne.symm hne), ih hys]
  obtain ⟨pre, post, rfl⟩ := List.append_of_mem hi
  obtain ⟨hpre, hpost⟩ := not_mem_of_nodup hn
  rw [List.foldl_append, hidle pre hpre, List.foldl_cons, hidle post hpost]

/-- A track that has not moved moves no proof. -/
theorem provingStep_same {x : Nat × Bool} {j : Nat}
    (h : ∀ u, ts[j - 1]? = some u → s.track u = s0.track u) : provingStep s0 s ts x j = x := by
  unfold provingStep
  split
  · rfl
  · next t ht =>
    have hocc : becameOccupied s0 s t = false := by
      simp [becameOccupied, occupies, State.knownOccupied, h t ht]
    have hclr : becameClear s0 s t = false := by simp [becameClear, State.knownClear, h t ht]
    simp [hocc, hclr]

/-- The progress of a proof where one track that stands once in its list has moved is that track's step. -/
theorem provingMove_eq (hm : TrackMoves c a b s0 s) (hn : ts.Nodup) (h1 : 1 ≤ i)
    (hi : ts[i - 1]? = some (.here c)) :
    provingMove s0 s ts p = provingStep s0 s ts (p, false) i := by
  have hlt : i - 1 < ts.length := (List.getElem?_eq_some_iff.mp hi).1
  have hstep := foldl_single (f := fun x i => provingStep s0 s ts x (i + 1)) (i := i - 1)
    List.nodup_range (List.mem_range.mpr hlt) (fun x j hj => provingStep_same fun u hu =>
      hm.others u fun hc => hj ?_) (p, false)
  · rw [provingMove, hstep, Nat.sub_add_cancel h1]
  · rw [Nat.add_sub_cancel, hc] at hu
    exact ((List.getElem?_inj hlt hn).mp (hi.trans hu.symm)).symm

/-- A track that has moved is not one that stands elsewhere in the list. -/
theorem track_elsewhere (hm : TrackMoves c a b s0 s) (hn : ts.Nodup) (hi : ts[i - 1]? = some (.here c))
    {j : Nat} (hj : j ≠ i - 1) {u : Track} (hu : ts[j]? = some u) : s.track u = s0.track u := by
  refine hm.others u fun hc => hj ?_
  have hlt : i - 1 < ts.length := (List.getElem?_eq_some_iff.mp hi).1
  exact ((List.getElem?_inj hlt hn).mp (hi.trans (by rw [hu, hc]))).symm

/-- The next track of the list becomes OCCUPIED, the one before it OCCUPIED: the proof goes on by one. -/
theorem provingStep_advances (hm : TrackMoves c a .occupied s0 s) (ha : a ≠ .occupied)
    (hi : ts[i - 1]? = some (.here c)) (hp : p + 1 = i)
    (hbefore : 2 ≤ i → ∃ u, ts[i - 2]? = some u ∧ s.knownOccupied u = true) :
    provingStep s0 s ts (p, false) i = (i, false) := by
  have hocc : becameOccupied s0 s (.here c) = true := by
    simp [becameOccupied, occupies, State.knownOccupied, hm.before, hm.after, ha]
  unfold provingStep
  simp only [hi, hocc, Bool.true_and, hp, beq_self_eq_true]
  rcases Nat.lt_or_ge i 2 with h2 | h2
  · have : i = 1 := by omega
    simp [this]
  · obtain ⟨u, hu, hk⟩ := hbefore h2
    simp [hu, hk]

/-- A track becomes CLEAR: the proof falls to 0 and is broken where that track is the last it has reached and
the next is not OCCUPIED, and stands elsewhere. -/
theorem provingStep_clears (hm : TrackMoves c .occupied .clear s0 s)
    (hi : ts[i - 1]? = some (.here c)) :
    provingStep s0 s ts (p, false) i =
      if p = i ∧ i < ts.length ∧ ∀ u, ts[i]? = some u → s.knownOccupied u = false then (0, true)
      else (p, false) := by
  have hocc : becameOccupied s0 s (.here c) = false := by
    simp [becameOccupied, occupies, State.knownOccupied, hm.after]
  have hclr : becameClear s0 s (.here c) = true := by
    simp [becameClear, State.knownClear, hm.before, hm.after]
  unfold provingStep
  simp only [hi, hocc, hclr, Bool.false_and, Bool.false_eq_true, ↓reduceIte, Bool.true_and]
  cases hnext : ts[i]? with
  | none => simp
  | some u => simp [and_assoc]

/-- A list whose last track becomes OCCUPIED behind an OCCUPIED one is not run clear. -/
theorem provingDone_occupied (hm : TrackMoves c a .occupied s0 s)
    (hi : ts[i - 1]? = some (.here c)) (hl : i = ts.length)
    (hbefore : 2 ≤ i → ∃ u, ts[i - 2]? = some u ∧ s.knownOccupied u = true) :
    provingDone s0 s ts = false := by
  match ts, hi, hl, hbefore with
  | [], _, _, _ => rfl
  | [t], hi, hl, _ =>
    obtain rfl : t = .here c := by simpa [hl] using hi
    simp [provingDone, becameClear, State.knownClear, hm.after]
  | t :: t' :: ts', hi, hl, hbefore =>
    obtain ⟨u, hu, hk⟩ := hbefore (by simp [hl])
    have hmem : u ∈ (t :: t' :: ts').take ((t :: t' :: ts').length - 1) := by
      rw [List.mem_take_iff_getElem]
      obtain ⟨hlt, he⟩ := List.getElem?_eq_some_iff.mp hu
      have hmin : i - 2 < min ((t :: t' :: ts').length - 1) (t :: t' :: ts').length := by
        simp only [List.length_cons] at hl ⊢; omega
      exact ⟨i - 2, hmin, he⟩
    have hclr : s.knownClear u = false := by
      simp only [State.knownOccupied, beq_iff_eq] at hk
      simp [State.knownClear, hk]
    have hall : ((t :: t' :: ts').take ((t :: t' :: ts').length - 1)).all s.knownClear = false := by
      rw [List.all_eq_false]
      exact ⟨u, hmem, by simp [hclr]⟩
    unfold provingDone
    simp only [hall, Bool.and_false]

/-- A list is run clear as the last OCCUPIED track before its end becomes CLEAR, or its one track. -/
theorem provingDone_clear (hm : TrackMoves c .occupied .clear s0 s) (h1 : 1 ≤ i)
    (hi : ts[i - 1]? = some (.here c)) (hlt : i < ts.length ∨ ts.length = 1)
    (hclear : ∀ j u, j + 1 < ts.length → j + 1 ≠ i → ts[j]? = some u → s.knownClear u = true) :
    provingDone s0 s ts = true := by
  have hhere : s.knownClear (.here c) = true := by simp [State.knownClear, hm.after]
  match ts, hi, hlt, hclear with
  | [], hi, _, _ => simp at hi
  | [t], hi, _, _ =>
    have hi0 : i - 1 = 0 := by simpa using (List.getElem?_eq_some_iff.mp hi).1
    obtain rfl : t = .here c := by simpa [hi0] using hi
    simp [provingDone, becameClear, State.knownClear, hm.before, hm.after]
  | t :: t' :: ts', hi, hlt, hclear =>
    unfold provingDone
    rw [Bool.and_eq_true, List.any_eq_true, List.all_eq_true]
    refine ⟨⟨.here c, List.mem_of_getElem? hi, by simp [hm.before, hm.after]⟩, fun u hu => ?_⟩
    obtain ⟨j, hj, he⟩ := List.mem_take_iff_getElem.mp hu
    by_cases hji : j + 1 = i
    · have : (t :: t' :: ts')[i - 1]? = some u := by
        rw [← hji, Nat.add_sub_cancel]; exact List.getElem?_eq_some_iff.mpr ⟨by omega, he⟩
      obtain rfl : Track.here c = u := Option.some.inj (hi.symm.trans this)
      exact hhere
    · exact hclear j u (by omega) hji (List.getElem?_eq_some_iff.mpr ⟨by omega, he⟩)

end Progress

/-! ## A view changed and its section occupied (R94, R106, R108) -/

section Occupied
variable (s s0 : State) (e : EndNo) (z : EndCfg)

theorem registerView_ends (c : EndCfg) (old new : View) (auto : Bool) :
    (s.registerView c old new auto).ends = s.ends := by
  unfold State.registerView State.registerChange
  dsimp only
  (repeat' split) <;> rfl

theorem shown_changeView (v : View) (auto : Bool) :
    shown ((s.changeView e z v auto).view e) = shown v := by
  rw [State.changeView, view_of_ends (registerView_ends _ _ _ _ _), State.putView, State.judgeProof,
    view_updView_same, State.putFields, view_of_ends (updBell_ends _ _ _), view_updView_same]
  rfl

/-- The proof that a change of a view leaves is created or dropped on the tracks as they stand. -/
theorem proof_changeView (v : View) (auto : Bool) (hv : v.shows .occupied z.toHere = true)
    (hs : (s.view e).shows .occupied z.toHere = false) :
    ((s.changeView e z v auto).view e).proof = some (s.newProof z) := by
  have hview : ((s.putFields e z v).view e).shows .occupied z.toHere = true := by
    rw [State.putFields, view_of_ends (updBell_ends _ _ _), view_updView_same]
    exact hv
  have hknown : (s.putFields e z v).knownOccupied = s.knownOccupied := funext fun u => by
    simp only [State.knownOccupied, track_of_rest (rest_putFields s e z v)]
  rw [State.changeView, view_of_ends (registerView_ends _ _ _ _ _), State.putView, State.judgeProof,
    view_updView_same]
  simp only [State.proofFor, hview, hs, ↓reduceIte, Bool.false_eq_true, State.newProof, hknown]

/-- An automatic occupation makes one entry: OCCUPIED, with the class and number of the section. -/
theorem records_autoOccupy (hz : s.endCfg e = some z) (ho : s.occupiedSince s0 e z = true) :
    (s.autoOccupy s0 e).records =
      s.records.take { EventInfo.ofSection .occupied z.section_ with
        cls := (s.view e).cls, acc := some (s.view e).acc, auto := true } := by
  have hclear : (s.view e).state = .clear := by
    simp only [State.occupiedSince, Bool.and_eq_true, beq_iff_eq] at ho
    exact ho.1.2
  have hkind : changeKind (s.view e) (s.view e).toOccupied = some .occupied := by
    simp only [changeKind, View.toOccupied, hclear]
  have hcleared : obstructionCleared (s.view e) (s.view e).toOccupied = false := by
    simp [obstructionCleared, View.toOccupied]
  have hset : obstructionSet (s.view e) (s.view e).toOccupied = false := by
    simp [obstructionSet, View.toOccupied]
  have hauto : s.autoOccupy s0 e = s.changeView e z (s.view e).toOccupied true := by
    simp only [State.autoOccupy, hz, ho, ↓reduceIte]
  rw [hauto, State.changeView, State.registerView, State.registerChange, hkind, hcleared, hset]
  rfl

/-- A section that is not CLEAR is not occupied automatically. -/
theorem autoOccupy_idle (h : (s.view e).state ≠ .clear) : s.autoOccupy s0 e = s := by
  unfold State.autoOccupy
  split
  · rfl
  · next c _ =>
    have hno : s.occupiedSince s0 e c = false := by
      simp [State.occupiedSince, beq_false_of_ne h]
    rw [hno]
    rfl

end Occupied

/-! ## What an event of a track brings an end when it is closed -/

section Closed
variable {s s0 : State} {e : EndNo} {z : EndCfg}

/-- An owned section CLEAR OUTWARD whose entry track comes to be OCCUPIED is OCCUPIED when the event has been
closed, its direction, class and number kept (R106). -/
theorem shown_react_occupied {c : ChanNo} {a : TrackState} (h : s.Calm) (he : s.ends = s0.ends)
    (hw : s.working = true) (hm : TrackMoves c a .occupied s0 s) (ha : a ≠ .occupied)
    (hz : s.endCfg e = some z) (ho : z.owner = true) (ht : z.entryTrack = some c)
    (hclear : (s.view e).state = .clear) (hdir : (s.view e).dir = .outward) :
    shown ((s.react s0).view e) = (.occupied, .outward, (s.view e).cls, (s.view e).acc) := by
  obtain ⟨m, q, helse, hq, hreact, -⟩ := react_at s0 e h he hw
  have hcm := calm_of_rest helse.rest h
  have hzm : m.endCfg e = some z := (endCfg_of_rest helse.rest e).trans hz
  have hidle : (m.view e).shows .occupied z.toHere = false := by
    simp [helse.view, View.shows, hclear]
  have hrest : q.rest = s.rest := (hq.rest.trans (rest_followProof s0 e hcm)).trans helse.rest
  have hzq : q.endCfg e = some z := (endCfg_of_rest hrest e).trans hz
  have hshown : shown (q.view e) = shown (s.view e) := by
    rw [hq.view, shown_followProof hcm hzm (.inr hidle), helse.view]
  simp only [shown, Prod.mk.injEq] at hshown
  obtain ⟨hqs, hqd, hqc, hqa⟩ := hshown
  have hsince : q.occupiedSince s0 e z = true := by
    simp [State.occupiedSince, hqs, hclear, hqd, hdir, EndCfg.rearEntry, ho, ht, occupies,
      State.knownOccupied, track_of_rest hrest, hm.before, hm.after, ha]
  have hauto : q.autoOccupy s0 e = q.changeView e z (q.view e).toOccupied true := by
    simp only [State.autoOccupy, hzq, hsince, ↓reduceIte]
  rw [hreact, hauto, shown_changeView]
  simp only [shown, View.toOccupied, hqd, hqc, hqa, hdir]

/-- The progress of a proof and its completion depend on the tracks alone. -/
theorem proving_congr {t : State} (h : ∀ u, t.track u = s.track u) (ts : List Track) (p : Nat) :
    provingMove s0 t ts p = provingMove s0 s ts p ∧ provingDone s0 t ts = provingDone s0 s ts := by
  have hocc : t.knownOccupied = s.knownOccupied := funext fun u => by simp only [State.knownOccupied, h]
  have hclr : t.knownClear = s.knownClear := funext fun u => by simp only [State.knownClear, h]
  have hto : becameOccupied s0 t = becameOccupied s0 s := funext fun u => by
    rw [becameOccupied, occupies, hocc, becameOccupied, occupies]
  have htc : becameClear s0 t = becameClear s0 s := funext fun u => by
    rw [becameClear, hclr, becameClear]
  have hstep : provingStep s0 t = provingStep s0 s := by
    funext ts x i
    unfold provingStep
    rw [hto, htc, hocc]
  constructor
  · rw [provingMove, hstep, provingMove]
  · match ts with
    | [] => rfl
    | [u] => simp only [provingDone, becameClear, hclr]
    | u :: u' :: ts' => simp only [provingDone, h, hclr]

/-- An end of a switched-in station whose view shows OCCUPIED toward it with an incomplete proof. -/
structure Proves (s : State) (e : EndNo) (z : EndCfg) (p : Proof) : Prop where
  inn : s.switchedOut = false
  cfg : s.endCfg e = some z
  shows : (s.view e).shows .occupied z.toHere = true
  proof : (s.view e).proof = some p
  incomplete : p.complete = false

variable {p : Proof}

/-- The proof of such an end when an event of the tracks has been closed, with PROVING BROKEN where the proving
was broken (R108). -/
theorem proof_react (h : s.Calm) (he : s.ends = s0.ends) (hw : s.working = true) (hp : Proves s e z p) :
    ((s.react s0).view e).proof = some
      (let x := provingMove s0 s z.proving p.p
       if x.1 == z.proving.length && provingDone s0 s z.proving then
         { p with p := x.1, complete := true, waitUntil := none }
       else { p with p := x.1 }) ∧
    ((provingMove s0 s z.proving p.p).2 = true → s.records.notices.length < 24 →
      ⟨.provingBroken, e.val + 1, s.records.time, s.records.timeValid⟩
        ∈ (s.react s0).records.notices) := by
  obtain ⟨m, q, helse, hq, -, hinn, hgrows⟩ := react_at s0 e h he hw
  obtain ⟨hview, hlen⟩ := hinn hp.inn
  have hcm := calm_of_rest helse.rest h
  have hzm : m.endCfg e = some z := (endCfg_of_rest helse.rest e).trans hp.cfg
  have hpm : (m.view e).proof = some p := by rw [helse.view]; exact hp.proof
  have hom : m.switchedOut = false := (switchedOut_of_switch helse.switch).trans hp.inn
  obtain ⟨hmove, hdone⟩ := proving_congr (s0 := s0) (track_of_rest helse.rest) z.proving p.p
  have hnotClear : (q.view e).state ≠ .clear := by
    have hshown : shown (q.view e) = shown (s.view e) := by
      rw [hq.view, shown_followProof hcm hzm (.inl hom), helse.view]
    simp only [shown, Prod.mk.injEq] at hshown
    have hs := hp.shows
    simp only [View.shows, Bool.and_eq_true, beq_iff_eq] at hs
    rw [hshown.1, hs.1]
    decide
  constructor
  · rw [hview, autoOccupy_idle q s0 e hnotClear, hq.view,
      proof_followProof hcm hom hzm hpm hp.incomplete, hmove, hdone]
  · intro hb hn
    have htime : (m.records.time, m.records.timeValid) = (s.records.time, s.records.timeValid) :=
      congrArg RestFields.timeOfDay helse.rest
    obtain ⟨ht, hv⟩ := Prod.mk.inj htime
    have hnotice := notice_followProof (s0 := s0) hcm hzm hpm hp.incomplete (by rw [hmove]; exact hb)
      (by omega)
    rw [ht, hv] at hnotice
    exact hgrows.mem hnotice

variable {c : ChanNo} {i : Nat}

/-- The proof goes on by one as the next track becomes OCCUPIED with the one before it OCCUPIED. -/
theorem proof_react_advances {a : TrackState} (h : s.Calm) (he : s.ends = s0.ends)
    (hw : s.working = true) (hp : Proves s e z p) (hm : TrackMoves c a .occupied s0 s)
    (ha : a ≠ .occupied) (hn : z.proving.Nodup) (h1 : 1 ≤ i)
    (hi : z.proving[i - 1]? = some (.here c)) (hpi : p.p + 1 = i)
    (hbefore : 2 ≤ i → ∃ u, z.proving[i - 2]? = some u ∧ s0.knownOccupied u = true) :
    ((s.react s0).view e).proof = some { p with p := i } := by
  have hbefore' : 2 ≤ i → ∃ u, z.proving[i - 2]? = some u ∧ s.knownOccupied u = true := by
    intro h2
    obtain ⟨u, hu, hk⟩ := hbefore h2
    have hsame := track_elsewhere hm hn hi (by omega) hu
    exact ⟨u, hu, by rw [State.knownOccupied, hsame]; exact hk⟩
  rw [(proof_react h he hw hp).1, provingMove_eq hm hn h1 hi,
    provingStep_advances hm ha hi hpi hbefore']
  dsimp only
  by_cases hl : i = z.proving.length
  · rw [provingDone_occupied hm hi hl hbefore', Bool.and_false]
    rfl
  · rw [beq_false_of_ne hl, Bool.false_and]
    rfl

/-- A proof at its last track is complete as the tracks before that one are all CLEAR, or its one track is. -/
theorem proof_react_completes (h : s.Calm) (he : s.ends = s0.ends) (hw : s.working = true)
    (hp : Proves s e z p) (hm : TrackMoves c .occupied .clear s0 s) (hn : z.proving.Nodup) (h1 : 1 ≤ i)
    (hi : z.proving[i - 1]? = some (.here c)) (hpl : p.p = z.proving.length)
    (hlt : i < z.proving.length ∨ z.proving.length = 1)
    (hclear : ∀ j u, j + 1 < z.proving.length → j + 1 ≠ i → z.proving[j]? = some u →
      s0.knownClear u = true) :
    ((s.react s0).view e).proof = some { p with complete := true, waitUntil := none } := by
  have hclear' : ∀ j u, j + 1 < z.proving.length → j + 1 ≠ i → z.proving[j]? = some u →
      s.knownClear u = true := by
    intro j u hj hji hu
    rw [State.knownClear, track_elsewhere hm hn hi (by omega) hu]
    exact hclear j u hj hji hu
  have hstays : provingStep s0 s z.proving (p.p, false) i = (p.p, false) := by
    rw [provingStep_clears hm hi, if_neg]
    rintro ⟨hpi, hil, -⟩
    omega
  rw [(proof_react h he hw hp).1, provingMove_eq hm hn h1 hi, hstays,
    provingDone_clear hm h1 hi hlt hclear']
  simp [hpl]

/-- A proof falls to 0 with PROVING BROKEN as the last track it has reached becomes CLEAR with the next one not
OCCUPIED. -/
theorem proof_react_breaks (h : s.Calm) (he : s.ends = s0.ends) (hw : s.working = true)
    (hp : Proves s e z p) (hm : TrackMoves c .occupied .clear s0 s) (hn : z.proving.Nodup) (h1 : 1 ≤ i)
    (hi : z.proving[i - 1]? = some (.here c)) (hpi : p.p = i) (hlt : i < z.proving.length)
    (hahead : ∀ u, z.proving[i]? = some u → s0.knownOccupied u = false) :
    ((s.react s0).view e).proof = some { p with p := 0 } ∧
      (s.records.notices.length < 24 →
        ⟨.provingBroken, e.val + 1, s.records.time, s.records.timeValid⟩
          ∈ (s.react s0).records.notices) := by
  have hbreaks : provingMove s0 s z.proving p.p = (0, true) := by
    rw [provingMove_eq hm hn h1 hi, provingStep_clears hm hi, if_pos]
    refine ⟨hpi, hlt, fun u hu => ?_⟩
    rw [State.knownOccupied, track_elsewhere hm hn hi (by omega) hu]
    exact hahead u hu
  obtain ⟨hproof, hnotice⟩ := proof_react h he hw hp
  refine ⟨?_, hnotice (by rw [hbreaks])⟩
  have hne : (0 : Nat) ≠ z.proving.length := by omega
  rw [hproof, hbreaks]
  dsimp only
  rw [beq_false_of_ne hne, Bool.false_and]
  rfl

end Closed

/-! ## The decisions confirmed (R8, R9, R10) -/

section Decisions
variable {ch : Channel} {k : ChannelCfg} {n : Fin 1024}

/-- Below Td for the Nd-th sample together: OCCUPIED, the drop count 0 (R8, R9). -/
theorem decided_drop (hf : filtered k.k ch.f n.val < dropThreshold k ch.r)
    (hd : ch.decision = .dropping ∧ k.nd ≤ ch.drop + 1 ∨ ch.decision = .clear ∧ k.nd ≤ 1) :
    (decided ch k n).1.decision = .occupied ∧ (decided ch k n).1.drop = 0 ∧
      (decided ch k n).2 = [.dropConfirmed] := by
  rw [decided, converted_eq]
  rcases hd with ⟨hd, hn⟩ | ⟨hd, hn⟩
  · simp [Channel.decide, hd, Channel.decideDropping, hf, hn]
  · simp [Channel.decide, hd, Channel.decideClear, hf, hn]

/-- At or above Tp for the Np-th sample together: CLEAR, the pick-up count 0 (R10). -/
theorem decided_pick (hf : pickThreshold k ch.r ≤ filtered k.k ch.f n.val)
    (hd : ch.decision = .picking ∧ k.np ≤ ch.pick + 1 ∨ ch.decision = .occupied ∧ k.np ≤ 1) :
    (decided ch k n).1.decision = .clear ∧ (decided ch k n).1.pick = 0 ∧
      (decided ch k n).2 = [.pickupConfirmed] := by
  rw [decided, converted_eq]
  rcases hd with ⟨hd, hn⟩ | ⟨hd, hn⟩
  · simp [Channel.decide, hd, Channel.decidePicking, hf, hn]
  · simp [Channel.decide, hd, Channel.decideOccupied, hf, hn]

/-- At or above Td in DROPPING: a bob (R9). -/
theorem decided_bob (hf : dropThreshold k ch.r ≤ filtered k.k ch.f n.val)
    (hd : ch.decision = .dropping) :
    decided ch k n =
      ({ converted ch k n with decision := .clear, drop := 0, bob := true }, [.bob]) := by
  rw [decided, converted_eq]
  simp [Channel.decide, hd, Channel.decideDropping, Nat.not_lt.mpr hf]

end Decisions

/-! ## The station after a decision -/

section Station
variable {s : State} {c : ChanNo} {n : Fin 1024}

/-- A sample leaves the station at work or not as it was. -/
theorem working_sampledState (x : Sample) : (sampledState s c x).working = s.working := by
  have hr := rest_sampledState s c x
  have hpower : (sampledState s c x).power = s.power := congrArg RestFields.power hr
  have hconfig : (sampledState s c x).hasConfig = s.hasConfig := congrArg RestFields.hasConfig hr
  have hreport : (sampledState s c x).integrity.report = s.integrity.report :=
    congrArg (·.integrity.report) hr
  simp only [State.working, State.live, State.running, State.returnState, hpower, hconfig, hreport,
    (sampledState_frame s c x).2.2]

/-- An end that proves an arrival proves it in the state that a sample makes. -/
theorem proves_sampledState {e : EndNo} {z : EndCfg} {p : Proof} (x : Sample) (hp : Proves s e z p) :
    Proves (sampledState s c x) e z p := by
  obtain ⟨hends, hswitch, -⟩ := sampledState_frame s c x
  have hcfg : (sampledState s c x).endCfg e = s.endCfg e :=
    congrArg (fun r : RestFields => look r.cfg.ends e) (rest_sampledState s c x)
  have hview := view_of_ends hends e
  exact ⟨(switchedOut_of_switch hswitch).trans hp.inn, hcfg.trans hp.cfg, hview ▸ hp.shows,
    hview ▸ hp.proof, hp.incomplete⟩

/-- The channels after a valid sample: its own has the decision and the new F, every other is left. -/
theorem decision_react (h : s.Calm) {d : Decision} (hd : (s.sampled c (.valid n)).1.decision = d) :
    (((sampledState s c (.valid n)).react s).channel c).decision = d ∧
      (((sampledState s c (.valid n)).react s).channel c).f =
        filtered (s.channelCfg c).k (s.channel c).f n.val ∧
      ∀ b, b ≠ c → ((sampledState s c (.valid n)).react s).channel b = s.channel b := by
  rw [channel_sample_react_same h]
  exact ⟨hd, (sample_valid_frame (s.channel c) (s.channelCfg c) n).1,
    fun b hb => by rw [channel_sample_react h, if_neg (Ne.symm hb)]⟩

/-- The sample that confirms a drop, in the channel and its events. -/
theorem sampled_drop
    (hf : filtered (s.channelCfg c).k (s.channel c).f n.val
      < dropThreshold (s.channelCfg c) (s.channel c).r)
    (hd : (s.channel c).decision = .dropping ∧ (s.channelCfg c).nd ≤ (s.channel c).drop + 1 ∨
      (s.channel c).decision = .clear ∧ (s.channelCfg c).nd ≤ 1) :
    (s.sampled c (.valid n)).1.decision = .occupied ∧ (s.sampled c (.valid n)).1.drop = 0 ∧
      (s.sampled c (.valid n)).2 =
        ((s.channel c).settleStep (s.channelCfg c)).2 ++ [.dropConfirmed] := by
  obtain ⟨hdec, hdrop, hevs⟩ := decided_drop hf hd
  rw [State.sampled, sample_valid_ended fun hc => by simp [CountsFor, hdec] at hc, hevs]
  exact ⟨hdec, hdrop, rfl⟩

/-- The sample that confirms a pick-up, in the channel and its events. -/
theorem sampled_pick
    (hf : pickThreshold (s.channelCfg c) (s.channel c).r
      ≤ filtered (s.channelCfg c).k (s.channel c).f n.val)
    (hd : (s.channel c).decision = .picking ∧ (s.channelCfg c).np ≤ (s.channel c).pick + 1 ∨
      (s.channel c).decision = .occupied ∧ (s.channelCfg c).np ≤ 1) :
    (s.sampled c (.valid n)).1.decision = .clear ∧ (s.sampled c (.valid n)).1.pick = 0 ∧
      (s.sampled c (.valid n)).2 =
        ((s.channel c).settleStep (s.channelCfg c)).2 ++ [.pickupConfirmed] := by
  obtain ⟨hdec, hpick, hevs⟩ := decided_pick hf hd
  have hcount : ¬CountsFor (s.channel c).decision (decided (s.channel c) (s.channelCfg c) n).1 := by
    rcases hd with ⟨hd, -⟩ | ⟨hd, -⟩ <;> simp [CountsFor, hd]
  rw [State.sampled, sample_valid_ended hcount, hevs]
  exact ⟨hdec, hpick, rfl⟩

/-- The sample that is a bob, in the channel and its events. -/
theorem sampled_bob
    (hf : dropThreshold (s.channelCfg c) (s.channel c).r
      ≤ filtered (s.channelCfg c).k (s.channel c).f n.val)
    (hd : (s.channel c).decision = .dropping) :
    (s.sampled c (.valid n)).1.decision = .clear ∧ (s.sampled c (.valid n)).1.drop = 0 ∧
      (s.sampled c (.valid n)).1.bob = true ∧
      (s.sampled c (.valid n)).2 = ((s.channel c).settleStep (s.channelCfg c)).2 ++ [.bob] := by
  rw [State.sampled, sample_valid_ended fun hc => by simp [CountsFor, hd] at hc, decided_bob hf hd]
  exact ⟨rfl, rfl, rfl, rfl⟩

/-- A drop of a channel that was CLEAR or DROPPING moves its track to OCCUPIED. -/
theorem trackMoves_drop (hb : s.badStatic (.channel c) = false) (hp : s.isPoisoned (.channel c) = false)
    (hwas : (s.channel c).decision = .dropping ∨ (s.channel c).decision = .clear)
    (hdec : (s.sampled c (.valid n)).1.decision = .occupied) :
    ∃ a, a ≠ .occupied ∧ TrackMoves c a .occupied s (sampledState s c (.valid n)) := by
  rcases hwas with hwas | hwas
  · exact ⟨.shunted, by decide, trackMoves_sample hb hp (by rw [hwas]; rfl) (by rw [hdec]; rfl)⟩
  · exact ⟨.clear, by decide, trackMoves_sample hb hp (by rw [hwas]; rfl) (by rw [hdec]; rfl)⟩

/-- A pick-up of a channel that was OCCUPIED or PICKING moves its track from OCCUPIED to CLEAR. -/
theorem trackMoves_pick (hb : s.badStatic (.channel c) = false) (hp : s.isPoisoned (.channel c) = false)
    (hwas : (s.channel c).decision = .picking ∨ (s.channel c).decision = .occupied)
    (hdec : (s.sampled c (.valid n)).1.decision = .clear) :
    TrackMoves c .occupied .clear s (sampledState s c (.valid n)) := by
  refine trackMoves_sample hb hp ?_ (by rw [hdec]; rfl)
  rcases hwas with hwas | hwas <;> rw [hwas] <;> rfl

/-- The entry track's drop occupies an owned section that is CLEAR OUTWARD (R106). -/
theorem shown_sample_react {a : TrackState} {e : EndNo} {z : EndCfg} {x : Sample} (h : s.Calm)
    (hw : s.working = true) (hm : TrackMoves c a .occupied s (sampledState s c x)) (ha : a ≠ .occupied)
    (hz : s.endCfg e = some z) (ho : z.owner = true) (ht : z.entryTrack = some c)
    (hclear : (s.view e).state = .clear) (hdir : (s.view e).dir = .outward) :
    shown (((sampledState s c x).react s).view e) =
      (.occupied, .outward, (s.view e).cls, (s.view e).acc) := by
  have hends := (sampledState_frame s c x).1
  have hcfg : (sampledState s c x).endCfg e = s.endCfg e :=
    congrArg (fun r : RestFields => look r.cfg.ends e) (rest_sampledState s c x)
  have hview := view_of_ends hends e
  rw [shown_react_occupied (sampledState_calm h) hends ((working_sampledState x).trans hw) hm ha
    (hcfg.trans hz) ho ht (hview ▸ hclear) (hview ▸ hdir), hview]

end Station

/-- Settles O9: each of the three samples is its decision (`sampled_drop`, `sampled_pick`, `sampled_bob`), which
moves the one track; the section and the proofs follow it in the close of the event. -/
theorem decisionsConfirmed : Obligations.DecisionsConfirmed := by
  refine ⟨fun c n s hl h hb => ?_, fun e z s s0 hz =>
    ⟨records_autoOccupy s s0 e z hz, fun v auto hv hs => ?_⟩⟩
  · intro ch k f dec proving
    have hcalm := sampledState_calm (c := c) (x := .valid n) h
    have hends := (sampledState_frame s c (.valid n)).1
    have hproves {e z p i} (hp : proving e z p i) : (sampledState s c (.valid n)).working = true ∧
        Proves (sampledState s c (.valid n)) e z p := by
      obtain ⟨hw, hinn, -, hcfg, hshows, hproof, hinc, -⟩ := hp
      exact ⟨(working_sampledState _).trans hw,
        proves_sampledState _ ⟨hinn, hcfg, hshows, hproof, hinc⟩⟩
    refine ⟨fun hf hd => ?_, fun hf hd => ?_, fun hf hd => ?_⟩
    · obtain ⟨hdec, hdrop, hevs⟩ := sampled_drop hf hd
      have hmoves hp := trackMoves_drop hb hp (hd.imp And.left And.left) hdec
      refine ⟨_, congrArg Host.Outcome.next (takeSampleIf_brought hl h hb (by simp [hevs])),
        decision_react h hdec, by rw [channel_sample_react_same h]; exact hdrop, ?_, ?_⟩
      · intro e z hw hp hz ho ht hclear hdir
        obtain ⟨a, ha, hm⟩ := hmoves hp
        simpa only [shown, Prod.mk.injEq] using shown_sample_react h hw hm ha hz ho ht hclear hdir
      · intro e z p i hp hpi hbefore
        obtain ⟨hw, hprov⟩ := hproves hp
        obtain ⟨-, -, hpoison, -, -, -, -, hn, h1, hi⟩ := hp
        obtain ⟨a, ha, hm⟩ := hmoves hpoison
        exact proof_react_advances hcalm hends hw hprov hm ha hn h1 hi hpi hbefore
    · obtain ⟨hdec, hpick, hevs⟩ := sampled_pick hf hd
      have hmoves hp := trackMoves_pick hb hp (hd.imp And.left And.left) hdec
      refine ⟨_, congrArg Host.Outcome.next (takeSampleIf_brought hl h hb (by simp [hevs])),
        decision_react h hdec, by rw [channel_sample_react_same h]; exact hpick, ?_, ?_⟩
      · intro e z p i hp hpl hlt hclear
        obtain ⟨hw, hprov⟩ := hproves hp
        obtain ⟨-, -, hpoison, -, -, -, -, hn, h1, hi⟩ := hp
        exact proof_react_completes hcalm hends hw hprov (hmoves hpoison) hn h1 hi hpl hlt hclear
      · intro e z p i hp hpi hlt hahead
        obtain ⟨hw, hprov⟩ := hproves hp
        obtain ⟨-, -, hpoison, -, -, -, -, hn, h1, hi⟩ := hp
        have hbreaks := proof_react_breaks hcalm hends hw hprov (hmoves hpoison) hn h1 hi hpi hlt hahead
        have hquiet : noted s c (.valid n) = s := noted_of_events hevs
        rw [records_sampledState, hquiet] at hbreaks
        exact hbreaks
    · obtain ⟨hdec, hdrop, hbob, hevs⟩ := sampled_bob hf hd
      have htold : noted s c (.valid n) = s.notify .trackBob (c.val + 1) := noted_of_events hevs
      refine ⟨_, congrArg Host.Outcome.next ((if_pos hl).trans (takeSample_sound h hb)),
        decision_react h hdec, ?_⟩
      rw [channel_sample_react_same h]
      refine ⟨hdrop, hbob, fun hlen => mem_notices_sample_react h ?_⟩
      rw [htold]
      exact mem_notify_new _ _ hlen
  · rw [proof_changeView s e z v auto hv hs, State.newProof]
    cases z.proving with
    | nil => rfl
    | cons t ts => rfl

end Sys2Proof.TrackSensing
end

section
/-! The locking table: when a condition is met, when a view is sound and when an expression holds. -/

namespace Sys2Proof.LockingTable

open Sys2Proof Sys2Proof.Machine

section Conditions
variable (s : State)

/-- What holds under a condition alone does not hold without it. -/
theorem eq_false_of_iff {b : Bool} {p : Prop} (h : b = true ↔ p) (hp : ¬p) : b = false :=
  Bool.eq_false_iff.mpr (mt h.mp hp)

/-! ## When a condition is met (R42 to R48) -/

theorem met_leverNormal (l : LeverNo) :
    s.met (.leverNormal l) = true ↔ (s.lever l).position = .normal ∧ s.badLever l = false := by
  simp [State.met]

theorem met_leverReverse (l : LeverNo) :
    s.met (.leverReverse l) = true ↔ (s.lever l).position = .reverse ∧ s.badLever l = false := by
  simp [State.met]

theorem met_trackClear (t : Track) : s.met (.trackClear t) = true ↔ s.track t = some .clear := by
  simp [State.met, State.knownClear]

theorem met_trackOccupied (t : Track) :
    s.met (.trackOccupied t) = true ↔ s.track t = some .occupied := by
  simp [State.met, State.knownOccupied]

/-- A local track is known as its channel reports it, save FAILED or poisoned (R13, R43). -/
theorem track_here (c : ChanNo) {st : TrackState} (hst : st ≠ .failed) :
    s.track (.here c) = some st ↔
      (s.channel c).decision.reported = st ∧ s.badChannel c = false := by
  unfold State.track State.publishedState
  cases hb : s.badChannel c with
  | true => simp [hb]
  | false => cases hd : (s.channel c).decision.reported <;> simp [hb, hd, hst.symm]

/-- Both ways of being OCCUPIED: PICKING is counted (R13, R43). -/
theorem reported_occupied (d : Decision) : d.reported = .occupied ↔ d = .occupied ∨ d = .picking := by
  cases d <;> simp [Decision.reported]

theorem reported_clear (d : Decision) : d.reported = .clear ↔ d = .clear := by
  cases d <;> simp [Decision.reported]

/-- A remote track is known as its entry records it, its publisher fresh and without the lockdown mark, its
subscription configured and sound (R44, R48). -/
theorem track_far (i : SubNo) {st : TrackState} (hst : st ≠ .failed) :
    s.track (.far i) = some st ↔ ∃ k, look s.cfg.subs i = some k ∧
      (s.badStatic (.sub i) = false ∧ s.isPoisoned (.sub i) = false) ∧
      ((s.stationRec k.publisher).fresh = true ∧ (s.stationRec k.publisher).lockdown = false) ∧
      (s.sub i).state = st := by
  unfold State.track
  cases hk : look s.cfg.subs i with
  | none => simp [hk]
  | some k =>
    by_cases hknown : (s.badStatic (.sub i) = false ∧ s.isPoisoned (.sub i) = false) ∧
        (s.stationRec k.publisher).fresh = true ∧ (s.stationRec k.publisher).lockdown = false
    · obtain ⟨⟨hstatic, hpoison⟩, hfresh, hlock⟩ := hknown
      cases hs : (s.sub i).state <;> simp [hk, hstatic, hpoison, hfresh, hlock, hs, hst.symm]
    · have hbad : (s.badStatic (.sub i) || s.isPoisoned (.sub i) || !(s.stationRec k.publisher).fresh
          || (s.stationRec k.publisher).lockdown) = true := by
        refine Bool.of_not_eq_false fun hgood => hknown ?_
        simp only [Bool.or_eq_false_iff, Bool.not_eq_false'] at hgood
        obtain ⟨⟨⟨hstatic, hpoison⟩, hfresh⟩, hlock⟩ := hgood
        exact ⟨⟨hstatic, hpoison⟩, hfresh, hlock⟩
      simp only [hk, hbad, Option.some.injEq, exists_eq_left', if_true, reduceCtorEq, false_iff]
      exact fun ⟨hsound, hheard, _⟩ => hknown ⟨hsound, hheard⟩

/-- An end's view shows a state to a condition: at an owner as it stands, at a far end while the mirror is
fresh, its record sound of check word (R45, R48). -/
theorem viewShows_iff (e : EndNo) (st : SecState) :
    s.viewShows e st = true ↔ ∃ c, s.endCfg e = some c ∧ s.isPoisoned (c.viewRecord e) = false ∧
      (s.view e).state = st ∧ (c.owner = true ∨ (s.lineEnd e).fresh = true) := by
  unfold State.viewShows State.freshView
  cases s.endCfg e with
  | none => simp
  | some c => simp [and_comm]

theorem met_sectionBlocked (e : EndNo) : s.met (.sectionBlocked e) = s.viewShows e .blocked := rfl
theorem met_sectionOccupied (e : EndNo) : s.met (.sectionOccupied e) = s.viewShows e .occupied := rfl

theorem releaseIs_iff (e : EndNo) (st : RelState) :
    s.releaseIs e st = true ↔ (s.release e).state = st ∧ s.isPoisoned (.release e) = false := by
  simp [State.releaseIs]

theorem met_releaseAvailable (e : EndNo) : s.met (.releaseAvailable e) = s.releaseIs e .available := rfl
theorem met_releaseConsumed (e : EndNo) : s.met (.releaseConsumed e) = s.releaseIs e .consumed := rfl

theorem met_timerIdle (x : TimerNo) :
    s.met (.timerIdle x) = true ↔ look s.timers x = none ∧
      s.badStatic (.timer x) = false ∧ s.isPoisoned (.timer x) = false := by
  simp [State.met, and_assoc]

theorem switchedOut_iff : s.switchedOut = true ↔ s.switch.state = .out ∨ s.switch.state = .inPending := by
  unfold State.switchedOut
  cases s.switch.state <;> simp

theorem switchedOut_false_iff : s.switchedOut = false ↔ s.switch.state = .inn := by
  unfold State.switchedOut
  cases s.switch.state <;> simp

theorem met_switchedIn :
    s.met .switchedIn = true ↔ s.switch.state = .inn ∧ s.isPoisoned .switch = false := by
  simp [State.met, switchedOut_false_iff]

theorem met_switchedOut : s.met .switchedOut = true ↔
    (s.switch.state = .out ∨ s.switch.state = .inPending) ∧ s.isPoisoned .switch = false := by
  simp [State.met, switchedOut_iff]

/-! ## Sound views (R49, R123) -/

theorem sound_iff (e : EndNo) :
    s.sound e = true ↔ ∃ c, s.endCfg e = some c ∧ s.isPoisoned (c.viewRecord e) = false ∧
      s.badStatic (.sectionEnd e) = false ∧ (s.view e).obstruction = false ∧
      if c.owner then s.service ≠ .restrictive ∧ s.service ≠ .lockdown
      else (s.lineEnd e).fresh = true ∧ (s.view e).ownerFault = false ∧
        (s.view e).localObs = .clear := by
  unfold State.sound
  cases s.endCfg e with
  | none => simp
  | some c =>
    cases ho : c.owner with
    | true => simp [ho, and_assoc, and_left_comm]
    | false => simp [ho, and_assoc, and_left_comm]

/-! ## When an expression holds (R41, R48, R50, R51) -/

theorem termsHold_iff (ts : List (List Cond)) :
    s.termsHold ts = true ↔ ts = [] ∨ ∃ m ∈ ts, ∀ k ∈ m, s.met k = true := by
  simp [State.termsHold]

/-- What the automatic term of an expression asks: of a release lever's control, the release CONSUMED over a
sound view (R50); of a through lever's normal expression, STATION SWITCHED IN (R51). -/
def AutomaticTerm (s : State) (z : Expr) : Prop :=
  match z.kind with
  | .reverse => True
  | .control => ∀ e, (s.leverCfg z.lever).releaseOf = some e →
      s.met (.releaseConsumed e) = true ∧ s.sound e = true
  | .normal => (s.leverCfg z.lever).throughOf ≠ none → s.met .switchedIn = true

theorem autoTerm_iff (z : Expr) : s.autoTerm z = true ↔ AutomaticTerm s z := by
  unfold State.autoTerm AutomaticTerm
  cases z.kind with
  | reverse => simp
  | control => cases (s.leverCfg z.lever).releaseOf <;> simp [met_releaseConsumed]
  | normal => cases (s.leverCfg z.lever).throughOf <;> simp

theorem judge_iff (x : ExprNo) :
    s.judge x = true ↔ ∃ z, s.cfg.exprs[x.val]? = some z ∧ s.badStatic (.expr x) = false ∧
      s.termsHold z.terms = true ∧ s.autoTerm z = true := by
  unfold State.judge
  cases s.cfg.exprs[x.val]? with
  | none => simp
  | some z => simp [and_assoc]

end Conditions

/-- Settles O22: every clause is read off the lemma that says when the condition, the view or the expression it
names holds. -/
theorem poisonMeetsNothing : Obligations.PoisonMeetsNothing := by
  intro s
  have clear_ne : TrackState.clear ≠ .failed := by decide
  have occupied_ne : TrackState.occupied ≠ .failed := by decide
  refine ⟨fun l h => ?_, fun c h => ?_, fun i h => ?_, fun e c hc h => ?_, fun e h => ?_, fun x h => ?_,
    fun h => ?_, fun x h => ?_, fun l h => ?_, fun c h => ?_, fun i k hk hb hp => ?_, fun i hk => ?_,
    fun e c hc h => ?_, fun e hc => ?_, fun e h => ?_, fun x hb hp => ?_, fun h => ?_, fun x hx => ?_,
    fun x z hx hb => ?_⟩
  · exact ⟨eq_false_of_iff (met_leverNormal s l) (by simp [h]),
      eq_false_of_iff (met_leverReverse s l) (by simp [h])⟩
  · exact ⟨eq_false_of_iff (met_trackClear s _) (by simp [track_here s c clear_ne, h]),
      eq_false_of_iff (met_trackOccupied s _) (by simp [track_here s c occupied_ne, h])⟩
  · have hbad : ¬(s.badStatic (.sub i) = false ∧ s.isPoisoned (.sub i) = false) := by
      rcases h with h | h <;> simp [h]
    exact ⟨eq_false_of_iff (met_trackClear s _) (by simp [track_far s i clear_ne, hbad]),
      eq_false_of_iff (met_trackOccupied s _) (by simp [track_far s i occupied_ne, hbad])⟩
  · exact ⟨eq_false_of_iff (viewShows_iff s e .blocked) (by simp [hc, h]),
      eq_false_of_iff (viewShows_iff s e .occupied) (by simp [hc, h]),
      eq_false_of_iff (sound_iff s e) (by simp [hc, h])⟩
  · exact ⟨eq_false_of_iff (releaseIs_iff s e .available) (by simp [h]),
      eq_false_of_iff (releaseIs_iff s e .consumed) (by simp [h])⟩
  · refine eq_false_of_iff (met_timerIdle s x) ?_
    rcases h with h | h <;> simp [h]
  · exact ⟨eq_false_of_iff (met_switchedIn s) (by simp [h]),
      eq_false_of_iff (met_switchedOut s) (by simp [h])⟩
  · exact eq_false_of_iff (judge_iff s x) (by simp [h])
  · simp [met_leverNormal, met_leverReverse, h]
  · simp [met_trackClear, met_trackOccupied, track_here s c clear_ne, track_here s c occupied_ne,
      reported_clear, reported_occupied, h]
  · simp [met_trackClear, met_trackOccupied, track_far s i clear_ne, track_far s i occupied_ne, hk, hb, hp]
  · exact ⟨eq_false_of_iff (met_trackClear s _) (by simp [track_far s i clear_ne, hk]),
      eq_false_of_iff (met_trackOccupied s _) (by simp [track_far s i occupied_ne, hk])⟩
  · simp [met_sectionBlocked, met_sectionOccupied, viewShows_iff, sound_iff, hc, h]
  · exact ⟨eq_false_of_iff (viewShows_iff s e .blocked) (by simp [hc]),
      eq_false_of_iff (viewShows_iff s e .occupied) (by simp [hc]),
      eq_false_of_iff (sound_iff s e) (by simp [hc])⟩
  · simp [met_releaseAvailable, met_releaseConsumed, releaseIs_iff, h]
  · simp [met_timerIdle, hb, hp]
  · simp [met_switchedIn, met_switchedOut, h]
  · exact eq_false_of_iff (judge_iff s x) (by simp [hx])
  · have hjudge : s.judge x = true ↔ s.termsHold z.terms = true ∧ s.autoTerm z = true := by
      simp [judge_iff, hx, hb]
    exact hjudge.trans (and_congr (termsHold_iff s z.terms) (autoTerm_iff s z))

end Sys2Proof.LockingTable
end

section
/-! What the section unit's answers and the close of an event leave of the rest of the station, said once for
every view of the state that the ends, the bells, the line, the switch record and the record unit are no part of. -/

namespace Sys2Proof.SetAside

open Sys2Proof Sys2Proof.Machine Sys2Proof.EndEffects

/-- What `p` shows of a state is no part of what the section unit's answers change: the section ends, the bells,
the line unit, the switch record, and the record unit by a notice or an entry. -/
structure Aside {β : Type} (p : State → β) : Prop where
  updEnd : ∀ s e f, p (State.updEnd s e f) = p s
  updBell : ∀ s e f, p (State.updBell s e f) = p s
  updLine : ∀ s f, p (State.updLine s f) = p s
  updSwitch : ∀ s f, p (State.updSwitch s f) = p s
  notify : ∀ s k n, p (State.notify s k n) = p s
  register : ∀ s i, p (State.register s i) = p s

/-- What changes made in turn to a calm state leave, each keeping the rest. -/
theorem each_calm {α β : Type} {p : State → β} {s : State} (xs : List α) (f : State → α → State)
    (hr : ∀ s x, s.Calm → (f s x).rest = s.rest) (hp : ∀ s x, s.Calm → p (f s x) = p s) (hs : s.Calm) :
    p (s.each xs f) = p s := by
  unfold State.each
  induction xs generalizing s with
  | nil => rfl
  | cons x xs ih => rw [List.foldl_cons, ih (calm_of_rest (hr s x hs) hs), hp s x hs]

namespace Aside

section Operations
variable {β : Type} {p : State → β} (h : Aside p) (s : State)
include h

theorem updView (e : EndNo) (f : View → View) : p (s.updView e f) = p s := h.updEnd s e _
theorem updProof (e : EndNo) (f : Proof → Proof) : p (s.updProof e f) = p s := h.updView s e _
theorem updDemand (e : EndNo) (f : Demand → Demand) : p (s.updDemand e f) = p s := h.updEnd s e _
theorem updLineEnd (e : EndNo) (f : LineEnd → LineEnd) : p (s.updLineEnd e f) = p s := h.updLine s _
theorem enqueue (t : TxEntry) : p (s.enqueue t) = p s := h.updLine s _
theorem setRelease (e : EndNo) (r : Release) : p (s.setRelease e r) = p s := h.updEnd s e _
theorem registerRefused (c : EndCfg) (r : Reason) (a : Bool) : p (s.registerRefused c r a) = p s :=
  h.register s _
theorem markKey : p s.markKey = p s := h.updSwitch s _

theorem registerChange (c : EndCfg) (old new : View) (auto : Bool) :
    p (s.registerChange c old new auto) = p s := by
  unfold State.registerChange
  (repeat' split) <;> simp only [h.register]

theorem registerView (c : EndCfg) (old new : View) (auto : Bool) :
    p (s.registerView c old new auto) = p s := by
  unfold State.registerView
  dsimp only
  split <;> simp only [h.register, h.registerChange]

theorem putView (e : EndNo) (c : EndCfg) (v : View) : p (s.putView e c v) = p s := by
  simp only [State.putView, State.judgeProof, State.putFields, h.updView, h.updBell]

theorem changeView (e : EndNo) (c : EndCfg) (v : View) (auto : Bool) :
    p (s.changeView e c v auto) = p s := by
  simp only [State.changeView, h.registerView, h.putView]

theorem refuseMove (e : EndNo) (c : EndCfg) (d : CommPos) (r : Reason) :
    p (s.refuseMove e c d r) = p s := by
  simp only [State.refuseMove, h.updView, h.registerRefused]

theorem demandRefused (e a : EndNo) (r : Reason) : p (s.demandRefused e a r) = p s := by
  unfold State.demandRefused
  dsimp only
  (repeat' split) <;> simp only [h.registerRefused, h.updDemand]

theorem autoArrivalRefused (e : EndNo) (c : EndCfg) (seen : Bool) (r : Reason) :
    p (s.autoArrivalRefused e c seen r) = p s := by
  unfold State.autoArrivalRefused
  split <;> simp only [h.updProof, h.registerRefused]

/-! ### Settlements, releases and demands (R98, R100, R105, R128) -/

theorem requestRefused (e : EndNo) (c : EndCfg) (q : Request) (r : Reason) :
    p (s.requestRefused e c q r) = p s := by
  unfold State.requestRefused
  split <;> simp only [h.refuseMove, h.demandRefused, h.autoArrivalRefused, h.updView]

theorem settle (e : EndNo) (c : EndCfg) (o : Outcome) : p (s.settle e c o) = p s := by
  unfold State.settle
  dsimp only
  (repeat' split) <;> simp only [h.requestRefused, h.changeView, h.updView]

theorem lapse (e : EndNo) : p (s.lapse e) = p s := by
  unfold State.lapse
  split <;> simp only [h.settle]

theorem followRelease (e : EndNo) : p (s.followRelease e) = p s := by
  unfold State.followRelease
  (repeat' split) <;> simp only [h.setRelease]

theorem followDemand (e : EndNo) : p (s.followDemand e) = p s := by
  unfold State.followDemand
  dsimp only
  (repeat' split) <;> simp only [h.updDemand]

theorem followViews : p s.followViews = p s := by
  unfold State.followViews
  rw [each_keeps p _ _ h.followDemand, each_keeps p _ _ h.followRelease]

/-! ### Switching (R61, R133 to R135) -/

theorem freeKeys : p s.freeKeys = p s := each_keeps p _ _ (fun s e => h.updBell s e _) s

theorem endWaits : p s.endWaits = p s := each_keeps p _ _ (fun s e => h.updProof s e _) s

theorem comeIn (c : SwitchCause) : p (s.comeIn c) = p s := by
  simp only [State.comeIn, h.endWaits, h.freeKeys, h.register, h.updSwitch]

theorem forceIn (c : SwitchCause) : p (s.forceIn c) = p s := by
  unfold State.forceIn
  (repeat' split) <;> simp only [h.markKey, h.comeIn, h.updSwitch]

theorem judgeSwitch : p s.judgeSwitch = p s := by
  unfold State.judgeSwitch
  (repeat' split) <;> simp only [h.forceIn, h.comeIn]

/-! ### The line unit's offers (R85) -/

theorem offerSectionState (e : EndNo) : p (s.offerSectionState e) = p s := by
  unfold State.offerSectionState
  (repeat' split) <;> simp only [h.updLineEnd, h.updLine]

theorem offerEndReport : p s.offerEndReport = p s := by
  unfold State.offerEndReport
  (repeat' split) <;> simp only [h.updLine]

theorem offerChanges (s0 : State) : p (s.offerChanges s0) = p s := by
  have hs := each_keeps p (s.statesDue s0) _ h.offerSectionState s
  unfold State.offerChanges
  dsimp only
  split <;> simp only [h.offerEndReport, hs]

/-! ### Answers that build telegrams, while no damage waits to be found -/

variable {s}

theorem makeRequest (e : EndNo) (c : EndCfg) (k : ReqKind) (n : Nat) (o : Origin)
    {refused : State → State} (hr : ∀ t, p (refused t) = p t) (hs : s.Calm) :
    p (s.makeRequest e c k n o refused) = p s := by
  unfold State.makeRequest
  simp only [verify_calm hs]
  (repeat' split) <;> simp only [hr, h.updView, h.enqueue, h.notify]

theorem attemptCancel (e : EndNo) (c : EndCfg) (hs : s.Calm) : p (s.attemptCancel e c) = p s := by
  have hu f : (s.updView e f).Calm := calm_of_rest (rest_updView s e f) hs
  unfold State.attemptCancel
  dsimp only
  (repeat' split) <;>
    simp only [h.updView, h.makeRequest e c _ _ _ (fun t => h.updView t e _) (hu _)]

theorem giveArrival (e : EndNo) (c : EndCfg) (hs : s.Calm) : p (s.giveArrival e c) = p s := by
  have hu f : (s.updProof e f).Calm := calm_of_rest (rest_updProof s e f) hs
  unfold State.giveArrival
  dsimp only
  (repeat' split) <;> simp only [h.updProof, h.changeView,
    h.makeRequest e c _ _ _ (fun t => h.autoArrivalRefused t e c _ _) (hu _)]

theorem attemptArrival (e : EndNo) (c : EndCfg) (hs : s.Calm) : p (s.attemptArrival e c) = p s := by
  unfold State.attemptArrival
  rw [verify_calm hs]
  split <;> simp only [h.giveArrival e c hs]

theorem afterSettled (e : EndNo) (c : EndCfg) (o : Origin) (hs : s.Calm) :
    p (s.afterSettled e c o) = p s := by
  unfold State.afterSettled
  dsimp only
  (repeat' split) <;> simp only [h.attemptCancel e c hs, h.attemptArrival e c hs]

theorem completeProof (e : EndNo) (c : EndCfg) (hs : s.Calm) : p (s.completeProof e c) = p s :=
  (h.attemptArrival e c (calm_of_rest (rest_updProof s e _) hs)).trans (h.updProof s e _)

theorem moveProof (e : EndNo) (x : Nat × Bool) : p (EndEffects.moveProof s e x) = p s := by
  unfold EndEffects.moveProof
  dsimp only
  split <;> simp only [h.notify, h.updProof]

theorem followProof (s0 : State) (e : EndNo) (hs : s.Calm) : p (s.followProof s0 e) = p s := by
  rcases followProof_cases s e with ⟨z, q, hz, hq, hi⟩ | hidle
  · rw [followProof_eq hz hq hi]
    dsimp only
    split
    · rw [h.completeProof e z (calm_of_rest (rest_moveProof s _) hs), h.moveProof e _]
    · exact h.moveProof e _
  · rw [followProof_idle hidle]

theorem autoOccupy (s s0 : State) (e : EndNo) : p (s.autoOccupy s0 e) = p s := by
  unfold State.autoOccupy
  (repeat' split) <;> simp only [h.changeView]

/-! ### The close of an event, while no damage waits to be found -/

theorem settledReactions (s0 : State) (hs : s.Calm) : p (s.settledReactions s0) = p s := by
  unfold State.settledReactions
  refine each_calm _ _ (fun s e hc => ?_) (fun s e hc => ?_) hs
  · (repeat' split) <;> simp only [rest_afterSettled _ _ _ hc]
  · (repeat' split) <;> simp only [h.afterSettled _ _ _ hc]

theorem trackReactions (s0 : State) (hs : s.Calm) : p (s.trackReactions s0) = p s := by
  unfold State.trackReactions
  rw [each_keeps p _ _ fun s e => h.autoOccupy s s0 e,
    each_calm _ _ (fun _ e => rest_followProof s0 e) (fun _ e => h.followProof s0 e) hs]

theorem answerChanges (s0 : State) (hs : s.Calm) : p (s.answerChanges s0) = p s := by
  unfold State.answerChanges
  simp only [followVerify_calm s0 hs]
  split
  · rw [h.trackReactions s0 (calm_of_rest (rest_settledReactions s0 hs) hs), h.settledReactions s0 hs]
  · rfl

theorem followChanges (s0 : State) (hs : s.Calm) : p (s.followChanges s0) = p s := by
  rw [followChanges_calm s0 hs]
  split <;> simp only [h.followViews]

/-- The judgements of the station before that of proving (R98, R128, R133, R134). -/
theorem switchJudged (s0 : State) (hs : s.Calm) :
    p (if (s.followChanges s0).working then (s.followChanges s0).judgeSwitch else s.followChanges s0)
      = p s := by
  split <;> simp only [h.judgeSwitch, h.followChanges s0 hs]

end Operations

/-! ### The views that are set aside -/

theorem service : Aside State.service :=
  ⟨fun _ _ _ => rfl, fun _ _ _ => rfl, fun _ _ => rfl, fun _ _ => rfl, fun _ _ _ => rfl, fun _ _ => rfl⟩
theorem lanes : Aside State.lanes :=
  ⟨fun _ _ _ => rfl, fun _ _ _ => rfl, fun _ _ => rfl, fun _ _ => rfl, fun _ _ _ => rfl, fun _ _ => rfl⟩
theorem outputs : Aside State.outputs :=
  ⟨fun _ _ _ => rfl, fun _ _ _ => rfl, fun _ _ => rfl, fun _ _ => rfl, fun _ _ _ => rfl, fun _ _ => rfl⟩

end Aside

/-! ## The close of an event outside PROVING -/

/-- Outside PROVING there is no proving condition to judge (R144). -/
theorem judgeProving_idle {s : State} (s0 : State) (hs : s.service ≠ .proving) :
    s.judgeProving s0 = s := by
  simp [State.judgeProving, State.provingAsked, hs]

theorem Aside.judgeStation {β : Type} {p : State → β} (h : Aside p) {s : State} (s0 : State)
    (hs : s.Calm) (hp : s.service ≠ .proving) : p (s.judgeStation s0) = p s := by
  rw [judgeStation_calm s0 hs, judgeProving_idle s0 (Aside.service.switchJudged s0 hs ▸ hp),
    h.switchJudged s0 hs]

/-- What the blocks' answers and the judgements of the station leave. -/
theorem Aside.answered {β : Type} {p : State → β} (h : Aside p) {s : State} (s0 : State)
    (hs : s.Calm) (hp : s.service ≠ .proving) : p ((s.answerChanges s0).judgeStation s0) = p s := by
  have hservice := Aside.service.answerChanges s0 hs
  rw [h.judgeStation s0 (calm_of_rest (rest_answerChanges s0 hs) hs) (hservice ▸ hp),
    h.answerChanges s0 hs]

section Close
variable (s : State) (found : List RecordId)

@[simp] theorem latchDrops_service : s.latchDrops.service = s.service := by
  simp only [State.latchDrops]
@[simp] theorem commandOutputs_service : s.commandOutputs.service = s.service := by
  simp only [State.commandOutputs, State.latchDrops]
@[simp] theorem commandOutputs_lanes : s.commandOutputs.lanes = s.lanes := by
  simp only [State.commandOutputs, State.latchDrops]

@[simp] theorem judgeLanes_service : (s.judgeLanes found).service = s.service := by
  unfold State.judgeLanes
  split <;> rfl

@[simp] theorem evaluate_service : (s.evaluate found).service = s.service := by
  simp only [State.evaluate, commandOutputs_service, judgeLanes_service]
@[simp] theorem evaluate_lanes : (s.evaluate found).lanes = (s.judgeLanes found).lanes := by
  simp only [State.evaluate, commandOutputs_lanes]

variable {s}

/-- Where the station is neither IN SERVICE nor PROVING no output is commanded energized (R25, R30). -/
theorem commandOf_off (hi : s.service ≠ .inService) (hp : s.service ≠ .proving) (m : OutputNo) :
    s.commandOf m = false := by
  have hlock (l) : s.lockCommand l = false := by
    unfold State.lockCommand
    dsimp only
    split
    · rfl
    · split <;> first
        | rfl
        | exact absurd ‹_› hi
        | exact absurd ‹_› hp
  have hcontrol (l) : s.controlCommand l = false := by
    simp [State.controlCommand, State.controlAllowed, hi]
  unfold State.commandOf
  split
  · rfl
  · split
    · exact hlock _
    · exact hcontrol _

theorem command_commandOutputs_off (hi : s.service ≠ .inService) (hp : s.service ≠ .proving)
    (m : OutputNo) : (s.commandOutputs.output m).command = false := by
  rw [output_commandOutputs]
  exact commandOf_off ((latchDrops_service s).symm ▸ hi) ((latchDrops_service s).symm ▸ hp) m

variable (s0 : State)

/-- Outside PROVING the close of an event judges the lanes and the outputs in a state of the same service state,
lanes and rest, and what it does besides leaves all three. -/
theorem react_evaluated (h : s.Calm) (hp : s.service ≠ .proving) :
    ∃ t : State, t.rest = s.rest ∧ t.service = s.service ∧ t.lanes = s.lanes ∧
      (s.react s0).service = s.service ∧ (s.react s0).lanes = (t.judgeLanes []).lanes ∧
      (s.react s0).outputs = (t.judgeLanes []).commandOutputs.outputs := by
  have hclose : s.react s0 = _ := closeEvent_calm s0 false [] h
  have hservice := Aside.service.answered s0 h hp
  refine ⟨_, rest_answered s0 h, hservice, Aside.lanes.answered s0 h hp, ?_, ?_, ?_⟩
  · rw [hclose, Aside.service.offerChanges, evaluate_service, hservice]
  · rw [hclose, Aside.lanes.offerChanges, evaluate_lanes]
  · rw [hclose, Aside.outputs.offerChanges, State.evaluate]

end Close

end Sys2Proof.SetAside
end

section
/-! A disagreement of the lanes (R53) as the first urgent fault (R145): what the fault makes of the station, and
what the close of its event leaves of that. -/

namespace Sys2Proof.LockingTable

open Sys2Proof Sys2Proof.Machine Sys2Proof.SetAside

/-! ## A first urgent fault (R145, R146) -/

section Urgent
variable (s : State) (k : UrgentKind) (x : FaultItem) (op : Option Operation) (eff : Effect)

/-- The report that a first urgent fault fills (R145). -/
def firstReport : FaultReport :=
  ⟨k, x, op, eff, s.records.time, s.records.timeValid,
    some (if s.service == .loaded then Service.loaded else .proving), false, false, false⟩

/-- The station as a first urgent fault first makes it: RESTRICTIVE with its report, the stroke holds cleared. -/
def restricted : State :=
  State.clearHolds { s with
    service := .restrictive
    integrity := { s.integrity with report := some (firstReport s k x op eff) } }

/-- What a first urgent fault does further: the outputs, the requests, the releases, the switch state and its
notice. -/
theorem firstUrgent_eq : s.firstUrgent k x op eff =
    ((((restricted s k x op eff).commandOutputs.lapseAll.each allEnds fun s e => s.followRelease e).forceIn
      .fault).notify .urgentFault x.subject) := rfl

theorem rest_firstUrgent : (s.firstUrgent k x op eff).rest = (restricted s k x op eff).rest := by
  rw [firstUrgent_eq, rest_notify, rest_forceIn,
    each_keeps State.rest _ _ fun s e => rest_followRelease s e, State.lapseAll,
    each_keeps State.rest _ _ fun s e => rest_lapse s e, rest_commandOutputs]

theorem integrity_firstUrgent : (s.firstUrgent k x op eff).integrity =
    { s.integrity with report := some (firstReport s k x op eff) } :=
  integrity_of_rest (rest_firstUrgent s k x op eff)

/-- The section unit's part in a first urgent fault leaves what it sets aside. -/
theorem aside_firstUrgent {β : Type} {p : State → β} (h : Aside p) :
    p (s.firstUrgent k x op eff) = p (restricted s k x op eff).commandOutputs := by
  rw [firstUrgent_eq, h.notify, h.forceIn, each_keeps p _ _ h.followRelease, State.lapseAll,
    each_keeps p _ _ h.lapse]

theorem service_firstUrgent : (s.firstUrgent k x op eff).service = .restrictive := by
  rw [aside_firstUrgent s k x op eff Aside.service, commandOutputs_service]
  rfl

theorem lanes_firstUrgent : (s.firstUrgent k x op eff).lanes = s.lanes := by
  rw [aside_firstUrgent s k x op eff Aside.lanes, commandOutputs_lanes]
  rfl

end Urgent

/-! ## The lanes (R52, R53) -/

section Lanes
variable {s : State} {x : ExprNo}

/-- An expression marked lane failed keeps its mark for as long as the lanes disagree on it (R53). -/
theorem laneFailed_judged {l : Lanes} {a b : Bool} (now : Nat) (h : a ≠ b) (hf : l.laneFailed = true) :
    (l.judged a b now).laneFailed = true := by
  rw [Lanes.judged, if_neg (by simpa using h)]
  exact hf

theorem laneFailed_judgeLanes (found : List RecordId) (hx : x.val < s.cfg.exprs.length)
    (he : s.laneErrA.getLsbD x.val ≠ s.laneErrB.getLsbD x.val)
    (hf : (look s.lanes x).laneFailed = true) :
    (look (s.judgeLanes found).lanes x).laneFailed = true := by
  have hin : ¬ (s.asPoisoned found).cfg.exprs.length ≤ x.val := Nat.not_le.mpr hx
  unfold State.judgeLanes
  split
  · simp only [look_build, State.judgedLanes, if_neg hin]
    exact laneFailed_judged _ (fun heq => he (Bool.bne_right_inj.mp heq)) hf
  · exact hf

/-- The lanes with an expression marked lane failed (R53). -/
def laneMarked (s : State) (x : ExprNo) : State :=
  { s with lanes := upd s.lanes x fun l => { l with laneFailed := true } }

theorem judging_of_inService (hl : s.live = true) (hs : s.service = .inService) : s.judging = true := by
  simp [State.judging, hl, hs]

/-- IN SERVICE a disagreement that is not reported yet is a first urgent fault of the expression (R53, R145). -/
theorem laneFault_inService (hl : s.live = true) (hs : s.service = .inService)
    (hf : (look s.lanes x).laneFailed = false) :
    s.laneFault x = (laneMarked s x).firstUrgent .selfCheck (.record (.fixed (.expr x)))
      (some .lockEvaluation) .notApplied := by
  have hservice : (laneMarked s x).service = .inService := hs
  rw [State.laneFault, if_neg (by simp [hf, judging_of_inService hl hs])]
  show (laneMarked s x).urgent _ _ _ _ = _
  unfold State.urgent
  rw [hservice]

/-- SELF_CHECK IN SERVICE, as an event: the lane fault at its moment, and the close. -/
theorem execSelfCheck_inService {since : Nat} (hl : s.live = true) (hs : s.service = .inService)
    (ht : (look s.lanes x).since = some since) (hf : (look s.lanes x).laneFailed = false) :
    exec (.selfCheck x) s = .next (((s.reach (since + 960)).laneFault x).react s) := by
  have hasks : (s.judging && !(look s.lanes x).laneFailed) = true := by
    simp [hf, judging_of_inService hl hs]
  show execSelfCheck x s = _
  unfold execSelfCheck
  rw [ht]
  simp only [hasks, if_true]
  rfl

end Lanes

/-- Settles O19: the lane fault is the first urgent fault (`laneFault_inService`), and the close of its event judges
the lanes, which still disagree, and the outputs, all off in RESTRICTIVE (`react_evaluated`). -/
theorem laneDisagreementUrgent : Obligations.LaneDisagreementUrgent := by
  intro x since s hl hcalm hs hx hsince hf he
  have hexec := execSelfCheck_inService hl hs hsince hf
  rw [laneFault_inService (s := s.reach (since + 960)) hl hs hf] at hexec
  generalize hu : State.firstUrgent _ _ _ _ _ = u at hexec
  have hrest := hu ▸ rest_firstUrgent _ _ _ _ _
  have hservice : u.service = .restrictive := hu ▸ service_firstUrgent _ _ _ _ _
  have hlanes : u.lanes = (laneMarked s x).lanes := hu ▸ lanes_firstUrgent _ _ _ _ _
  have hi : u.integrity = { s.integrity with report := some ⟨.selfCheck, .record (.fixed (.expr x)),
      some .lockEvaluation, .notApplied, s.records.time, s.records.timeValid, some .proving,
      false, false, false⟩ } := by
    rw [← hu, integrity_firstUrgent]
    simp [firstReport, laneMarked, hs]
  have hc : u.Calm := by
    rw [State.Calm, hi]
    exact hcalm
  obtain ⟨v, hvrest, hvservice, hvlanes, htservice, htlanes, htoutputs⟩ :=
    react_evaluated s hc (by rw [hservice]; decide)
  have htrest : (u.react s).rest = u.rest := rest_react s hc
  have hv := hvrest.trans hrest
  have hvcfg : v.cfg = s.cfg := congrArg RestFields.cfg hv
  have hverrs : (v.laneErrA, v.laneErrB) = (s.laneErrA, s.laneErrB) := congrArg RestFields.laneErrs hv
  obtain ⟨ha, hb⟩ := Prod.mk.inj hverrs
  refine ⟨_, hexec, htservice.trans hservice, congrArg RestFields.clock (htrest.trans hrest), ?_,
    (integrity_of_rest htrest).trans hi, fun m => ?_⟩
  · rw [htlanes]
    refine laneFailed_judgeLanes [] (by rw [hvcfg]; exact hx) (by rw [ha, hb]; exact he) ?_
    rw [hvlanes, hlanes, laneMarked, look_upd_same]
  · have hoff : ((v.judgeLanes []).commandOutputs.output m).command = false :=
      command_commandOutputs_off (by simp [hvservice, hservice]) (by simp [hvservice, hservice]) m
    rw [State.output, htoutputs]
    exact hoff

end Sys2Proof.LockingTable
end
